-- ==== Sys2Proof/Word.lean ====
section
/-! DEFINITION. The two word types of the block: a byte (every datum, R6, R50) and the 16-bit
command or response word (R7, R81, R82). -/

namespace Sys2Proof

/-- A stored element, an operand, a register value: 8 bits, unsigned (R5, R6). -/
abbrev Byte := BitVec 8

/-- A command word or a response word: 16 bits (R81, R82). -/
abbrev Word := BitVec 16

end Sys2Proof
end

