-- ==== Sys2Proof/Syntax.lean ====
section
/-! DEFINITION. The operations of the block, one constructor per row of spec/opcode_table.json (R84),
the five formats and the ports that take them (R81, R84 last paragraph, R87). -/

namespace Sys2Proof

/-- One operation with its operands (R83, R84). -/
inductive Instr where
  | rbPush (v : Byte)                          -- RB_PUSH v, R111
  | rbPop                                      -- RB_POP, R112
  | rbLen                                      -- RB_LEN, R113
  | init                                       -- INIT, R141
  | sendByte (v : Byte)                        -- SEND_BYTE v, R142
  | sendLine (h : Bool)                        -- SEND_LINE with its handle flag, R143
  | readByte                                   -- READ_BYTE, R144
  | rxLen                                      -- RX_LEN, R145
  | irqRx                                      -- IRQ_RX, R171
  | irqTx                                      -- IRQ_TX, R172
  | writeTxRegister (v : Byte)                 -- WRITE_TX_REGISTER v, R191
  | readRxRegister                             -- READ_RX_REGISTER, R192
  | setTxInterruptEnabled (b : Bool)           -- SET_TX_INTERRUPT_ENABLED b, R193
  | queryFramingError                          -- QUERY_FRAMING_ERROR, R194
  | queryOverrun                               -- QUERY_OVERRUN, R195
  | rxDisable                                  -- RX_DISABLE, R196
  | rxEnable                                   -- RX_ENABLE, R197
  | configureLine                              -- CONFIGURE_LINE, R198
  | envTxReady                                 -- ENV_TX_READY, R199
  | envRxArrive (f o : Bool) (d : Byte)        -- ENV_RX_ARRIVE (d, f, o), R200
  | hostGie (b : Bool)                         -- HOST_GIE b, R201
  deriving DecidableEq, Repr

/-- The format classes `CW[15:12]` of R81. -/
inductive Format where
  | rb | fg | irq | hal | env
  deriving DecidableEq, Repr

/-- Who puts a word to the block (the agents of R87, and the collaborator's own port for HAL words). -/
inductive Port where
  | fg      -- the driver's foreground port
  | prod    -- the stand-alone RingBuffer's producer port
  | cons    -- the stand-alone RingBuffer's consumer port
  | irq     -- the interrupt logic, naming the handler it enters
  | hal     -- the collaborator's port
  | env     -- the environment
  | host    -- the host
  deriving DecidableEq, Repr

/-- The format of an operation (R84). -/
def Instr.format : Instr → Format
  | .rbPush _ | .rbPop | .rbLen => .rb
  | .init | .sendByte _ | .sendLine _ | .readByte | .rxLen => .fg
  | .irqRx | .irqTx => .irq
  | .writeTxRegister _ | .readRxRegister | .setTxInterruptEnabled _ | .queryFramingError
  | .queryOverrun | .rxDisable | .rxEnable | .configureLine => .hal
  | .envTxReady | .envRxArrive _ _ _ | .hostGie _ => .env

end Sys2Proof
end

