-- ==== Sys2Proof/WellFormed.lean ====
section
/-! DEFINITION. Well-formedness.  The operands of an `Instr` are typed exactly as R83 gives them (a
byte, or one bit), so a term of `Instr` has no ill-formed operand; what can be wrong is WHERE an
operation is asked for, and with what line data: a command is well formed when its port takes the
operation (R84 last paragraph) and a line accompanies only a SEND_LINE with a handle (R83). -/

namespace Sys2Proof

/-- R84: RB words go to a stand-alone RingBuffer's producer port (RB_PUSH, RB_LEN) or consumer port
(RB_POP, RB_LEN); FG words to the foreground port; IRQ words name the handler the interrupt logic
enters; HAL words go to the collaborator; ENV words are steps of the environment and the host. -/
def Port.accepts (p : Port) (i : Instr) : Bool :=
  match i with
  | .rbPush _ => decide (p = .prod)
  | .rbPop => decide (p = .cons)
  | .rbLen => decide (p = .prod) || decide (p = .cons)
  | .init | .sendByte _ | .sendLine _ | .readByte | .rxLen => decide (p = .fg)
  | .irqRx | .irqTx => decide (p = .irq)
  | .writeTxRegister _ | .readRxRegister | .setTxInterruptEnabled _ | .queryFramingError
  | .queryOverrun | .rxDisable | .rxEnable | .configureLine => decide (p = .hal)
  | .envTxReady | .envRxArrive _ _ _ => decide (p = .env)
  | .hostGie _ => decide (p = .host)

/-- R83: only a SEND_LINE with a data handle takes bytes from the line-data port. -/
def Instr.takesLine : Instr → Bool
  | .sendLine h => h
  | _ => false

/-- An operation as it is asked for: the port, the operation, the line that comes with it. -/
structure Command where
  port : Port
  instr : Instr
  line : List Byte
  deriving DecidableEq, Repr

/-- Both checks. -/
def Command.wellFormed (c : Command) : Bool :=
  c.port.accepts c.instr && (c.instr.takesLine || c.line.isEmpty)

end Sys2Proof
end

