-- ==== Sys2Proof/Decode.lean ====
section
/-! DEFINITION. The decoder of the 16-bit command word (R81, R83 to R86), total on any word and on any
bytes, rejecting by name; the encoder, written from the same table; and the opcode table itself as
rows of match and mask (spec/opcode_table.json). -/

namespace Sys2Proof

/-- Why a word is illegal (R85). -/
inductive DecodeError where
  | unknownOpcode    -- an opcode byte not in the table
  | nonzeroOperand   -- a listed opcode with a non-zero bit where its pattern has a literal 0
  | truncated        -- fewer than the two bytes of a word
  deriving DecidableEq, Repr

/-- `CW[15:8]`, the opcode (R81). -/
def opcOf (w : Word) : Byte := w.extractLsb' 8 8

/-- `CW[7:0]`, the operand byte (R81). -/
def opdOf (w : Word) : Byte := w.extractLsb' 0 8

/-- A command word from its two bytes (R81). -/
def wordOf (opc opd : Byte) : Word := opc ++ opd

/-- An operation with no operand: `opd` must be 0x00 (R83). -/
def noOperand (i : Instr) (opd : Byte) : Except DecodeError Instr :=
  if opd = 0x00#8 then .ok i else .error .nonzeroOperand

/-- An operation with a boolean operand: `opd[0]`, and `opd[7:1]` must be 0 (R83). -/
def boolOperand (i : Bool → Instr) (opd : Byte) : Except DecodeError Instr :=
  if opd = 0x00#8 then .ok (i false)
  else if opd = 0x01#8 then .ok (i true)
  else .error .nonzeroOperand

/-- The opcode map of R84 on the two bytes of a word. -/
def decodeFields (opc opd : Byte) : Except DecodeError Instr :=
  match opc.toNat with
  | 0x01 => .ok (.rbPush opd)
  | 0x02 => noOperand .rbPop opd
  | 0x03 => noOperand .rbLen opd
  | 0x10 => noOperand .init opd
  | 0x11 => .ok (.sendByte opd)
  | 0x12 => boolOperand .sendLine opd
  | 0x13 => noOperand .readByte opd
  | 0x14 => noOperand .rxLen opd
  | 0x20 => noOperand .irqRx opd
  | 0x21 => noOperand .irqTx opd
  | 0x30 => .ok (.writeTxRegister opd)
  | 0x31 => noOperand .readRxRegister opd
  | 0x32 => boolOperand .setTxInterruptEnabled opd
  | 0x33 => noOperand .queryFramingError opd
  | 0x34 => noOperand .queryOverrun opd
  | 0x35 => noOperand .rxDisable opd
  | 0x36 => noOperand .rxEnable opd
  | 0x37 => noOperand .configureLine opd
  | 0x40 => noOperand .envTxReady opd
  | 0x44 => .ok (.envRxArrive false false opd)
  | 0x45 => .ok (.envRxArrive false true opd)
  | 0x46 => .ok (.envRxArrive true false opd)
  | 0x47 => .ok (.envRxArrive true true opd)
  | 0x48 => boolOperand .hostGie opd
  | _ => .error .unknownOpcode

/-- The decoder of a command word. -/
def decode (w : Word) : Except DecodeError Instr := decodeFields (opcOf w) (opdOf w)

/-- The decoder of a byte stream: opcode byte first (R50, D29); what follows the word is handed back. -/
def decodeBytes : List Byte → Except DecodeError (Instr × List Byte)
  | opc :: opd :: rest =>
    match decodeFields opc opd with
    | .ok i => .ok (i, rest)
    | .error e => .error e
  | _ => .error .truncated

/-- A one-bit operand as an operand byte (R83). -/
def boolByte (b : Bool) : Byte := if b then 0x01#8 else 0x00#8

/-- The encoder: the command word of each operation (R84). -/
def encode : Instr → Word
  | .rbPush v => wordOf 0x01#8 v
  | .rbPop => wordOf 0x02#8 0x00#8
  | .rbLen => wordOf 0x03#8 0x00#8
  | .init => wordOf 0x10#8 0x00#8
  | .sendByte v => wordOf 0x11#8 v
  | .sendLine h => wordOf 0x12#8 (boolByte h)
  | .readByte => wordOf 0x13#8 0x00#8
  | .rxLen => wordOf 0x14#8 0x00#8
  | .irqRx => wordOf 0x20#8 0x00#8
  | .irqTx => wordOf 0x21#8 0x00#8
  | .writeTxRegister v => wordOf 0x30#8 v
  | .readRxRegister => wordOf 0x31#8 0x00#8
  | .setTxInterruptEnabled b => wordOf 0x32#8 (boolByte b)
  | .queryFramingError => wordOf 0x33#8 0x00#8
  | .queryOverrun => wordOf 0x34#8 0x00#8
  | .rxDisable => wordOf 0x35#8 0x00#8
  | .rxEnable => wordOf 0x36#8 0x00#8
  | .configureLine => wordOf 0x37#8 0x00#8
  | .envTxReady => wordOf 0x40#8 0x00#8
  | .envRxArrive f o d => wordOf (0x44#8 + (if f then 0x02#8 else 0x00#8) + (if o then 0x01#8 else 0x00#8)) d
  | .hostGie b => wordOf 0x48#8 (boolByte b)

/-- The two bytes of a command word, opcode byte first (R50, D29). -/
def encodeBytes (i : Instr) : List Byte := [opcOf (encode i), opdOf (encode i)]

/-- One row of the opcode table: a word is the row's when its masked bits equal `value`. -/
structure OpcodeRow where
  mnemonic : String
  value : Word
  mask : Word
  deriving DecidableEq, Repr

/-- Does the word match the row's pattern (R84)? -/
def OpcodeRow.covers (r : OpcodeRow) (w : Word) : Bool := decide (w &&& r.mask = r.value)

/-- RB and FG rows of spec/opcode_table.json. -/
def opcodeTableRbFg : List OpcodeRow := [
  ⟨"RB_PUSH", 0x0100, 0xFF00⟩, ⟨"RB_POP", 0x0200, 0xFFFF⟩, ⟨"RB_LEN", 0x0300, 0xFFFF⟩,
  ⟨"INIT", 0x1000, 0xFFFF⟩, ⟨"SEND_BYTE", 0x1100, 0xFF00⟩, ⟨"SEND_LINE", 0x1200, 0xFFFE⟩,
  ⟨"READ_BYTE", 0x1300, 0xFFFF⟩, ⟨"RX_LEN", 0x1400, 0xFFFF⟩]

/-- IRQ and HAL rows of spec/opcode_table.json. -/
def opcodeTableIrqHal : List OpcodeRow := [
  ⟨"IRQ_RX", 0x2000, 0xFFFF⟩, ⟨"IRQ_TX", 0x2100, 0xFFFF⟩,
  ⟨"WRITE_TX_REGISTER", 0x3000, 0xFF00⟩, ⟨"READ_RX_REGISTER", 0x3100, 0xFFFF⟩,
  ⟨"SET_TX_INTERRUPT_ENABLED", 0x3200, 0xFFFE⟩, ⟨"QUERY_FRAMING_ERROR", 0x3300, 0xFFFF⟩,
  ⟨"QUERY_OVERRUN", 0x3400, 0xFFFF⟩, ⟨"RX_DISABLE", 0x3500, 0xFFFF⟩,
  ⟨"RX_ENABLE", 0x3600, 0xFFFF⟩, ⟨"CONFIGURE_LINE", 0x3700, 0xFFFF⟩]

/-- ENV rows of spec/opcode_table.json. -/
def opcodeTableEnv : List OpcodeRow := [
  ⟨"ENV_TX_READY", 0x4000, 0xFFFF⟩, ⟨"ENV_RX_ARRIVE", 0x4400, 0xFC00⟩, ⟨"HOST_GIE", 0x4800, 0xFFFE⟩]

/-- spec/opcode_table.json: 21 rows (R84). -/
def opcodeTable : List OpcodeRow := opcodeTableRbFg ++ opcodeTableIrqHal ++ opcodeTableEnv

/-- The mnemonic of an operation, as the table spells it. -/
def Instr.mnemonic : Instr → String
  | .rbPush _ => "RB_PUSH"
  | .rbPop => "RB_POP"
  | .rbLen => "RB_LEN"
  | .init => "INIT"
  | .sendByte _ => "SEND_BYTE"
  | .sendLine _ => "SEND_LINE"
  | .readByte => "READ_BYTE"
  | .rxLen => "RX_LEN"
  | .irqRx => "IRQ_RX"
  | .irqTx => "IRQ_TX"
  | .writeTxRegister _ => "WRITE_TX_REGISTER"
  | .readRxRegister => "READ_RX_REGISTER"
  | .setTxInterruptEnabled _ => "SET_TX_INTERRUPT_ENABLED"
  | .queryFramingError => "QUERY_FRAMING_ERROR"
  | .queryOverrun => "QUERY_OVERRUN"
  | .rxDisable => "RX_DISABLE"
  | .rxEnable => "RX_ENABLE"
  | .configureLine => "CONFIGURE_LINE"
  | .envTxReady => "ENV_TX_READY"
  | .envRxArrive _ _ _ => "ENV_RX_ARRIVE"
  | .hostGie _ => "HOST_GIE"

/-- The low `nbits` bits of `w` as a command word. -/
def tableWord (nbits w : Nat) : Word := BitVec.ofNat 16 (w % 2 ^ nbits)

/-- What the decoder reads from a table word; a word with a bit above bit 15 is no command word (R86). -/
def decodeTableWord (nbits w : Nat) : Option Instr :=
  if w % 2 ^ nbits < 2 ^ 16 then
    match decode (tableWord nbits w) with
    | .ok i => some i
    | .error _ => none
  else none

end Sys2Proof
end

