-- ==== Sys2Proof/Config.lean ====
section
/-! DEFINITION. The constants the spec fixes, the parameters it leaves OPEN (R5) and the free values
it calls unspecified or a draw (R7, R35, R198, R200).  A free value is an `opaque` constant with no
body: no proof can learn what it is. -/

namespace Sys2Proof

/-- The capacity of a buffer, an integer N with 2 <= N <= 256 (R5, R116, D5): the element `c` of
`Fin 255` stands for N = c + 2, so no capacity outside the range can be built (U5, U6; log 1). -/
abbrev Capacity := Fin 255

/-- CR = 0x0D (R89). -/
def Config.cr : Byte := 0x0D
/-- LF = 0x0A (R89). -/
def Config.lf : Byte := 0x0A
/-- The data byte of an EMPTY result, `EMPTY_SENTINEL` = 0x00 (R5, R89, D15). -/
def Config.emptySentinel : Byte := 0x00

/-- N_TX of the machine that comes out of reset: an OPEN parameter (R5, log 1). -/
opaque Config.txCapacity : Capacity
/-- N_RX of the machine that comes out of reset: an OPEN parameter (R5, log 1). -/
opaque Config.rxCapacity : Capacity
/-- N of the stand-alone RingBuffer that comes out of reset: an OPEN parameter (R5, log 1). -/
opaque Config.rbCapacity : Capacity
/-- BAUD, an OPEN parameter that no rule reads (R5, D30, log 25). -/
opaque Config.baud : Nat

/-- Power-on values R35 calls unspecified ("a model takes it as a free initial value, never as zero");
an index is taken mod N (logs 2, 4). -/
opaque Config.powerOnTxHead : Nat
opaque Config.powerOnTxTail : Nat
opaque Config.powerOnRxHead : Nat
opaque Config.powerOnRxTail : Nat
opaque Config.powerOnTxArmed : Bool
opaque Config.powerOnRxIrqEnabled : Bool
opaque Config.powerOnRxEnabled : Bool
opaque Config.powerOnTxRegEmpty : Bool

/-- The byte of slot `i` of storage `b` (0 TX, 1 RX, 2 stand-alone) while no push has written it:
unspecified (R35, U7; log 3). -/
opaque Config.unwrittenByte : (b i : Nat) → Byte

/-- The draw of CONFIGURE_LINE, `tx_reg_empty <- draw` (R198; log 9), applied to the draw counter. -/
opaque Config.drawTxReady : Nat → Bool
/-- The byte READ_RX_REGISTER returns when no sample waits (the spec states none; log 10). -/
opaque Config.drawByte : Nat → Byte
/-- The flag a query returns when no sample waits (the spec states none; log 10). -/
opaque Config.drawFlag : Nat → Bool

end Sys2Proof
end

