-- ==== Sys2Proof/Machine/State.lean ====
section
/-! DEFINITION. The state of the block (10_state.md R20 to R37), the positions of its contexts (R28, R29),
the turns that say which agent moves next (R203, R87), the named reasons a step can stop, and the
state at power-on (R35, R260). -/

namespace Sys2Proof.Machine

/-- A storage: (slot, byte) pairs with strictly rising slots; a slot that is not listed holds no byte any
push has written (log 3). -/
abbrev Memory := List Host.Cell

/-- Which storage space (R33) a buffer's slots are. -/
inductive Space where
  | tx | rx | rb
  deriving DecidableEq, Repr

/-- A RingBuffer (R20): a storage of N slots and two indices.  `cap` carries N, the length of the storage.
`pushed` and `popped` are ghosts (R63): the values of the pushes that returned Ok, in the order of
their PU4 steps, and the values of the pops that returned a byte, in the order of their PO4 steps; no
operation reads them (log 14). -/
structure RingBuffer where
  space : Space
  cap : Capacity
  storage : Memory
  head : Nat
  tail : Nat
  pushed : List Byte
  popped : List Byte
  deriving DecidableEq, Repr

/-- Where a push stands: the micro-step it performs next (R28, R111) with the locals it holds (R29). -/
inductive PushPos where
  | pu1 (v : Byte)
  | pu2 (v : Byte) (h : Nat)
  | pu3 (v : Byte) (h t next : Nat)
  | pu4 (v : Byte) (h t next : Nat)
  deriving DecidableEq, Repr

/-- Where a pop stands (R112). -/
inductive PopPos where
  | po1
  | po2 (h : Nat)
  | po3 (h t : Nat)
  | po4 (h t : Nat) (v : Byte)
  deriving DecidableEq, Repr

/-- Where a length stands (R113). -/
inductive LenPos where
  | ln1
  | ln2 (h : Nat)
  deriving DecidableEq, Repr

/-- Where a SEND_BYTE stands: in its push, or at AR1 (R142). -/
inductive SendPos where
  | push (p : PushPos)
  | ar1
  deriving DecidableEq, Repr

/-- The stage of a SEND_LINE (R29, R143). -/
inductive Stage where
  | body | cr | lf
  deriving DecidableEq, Repr

/-- `fg.pc` with the foreground's locals (R28, R29): the operation, its micro-step, `v`, `h`, `t`, `next`,
and for SEND_LINE the handle flag and the line (at SL0), then the stage and the remaining bytes `rest`. -/
inductive FgPos where
  | idle
  | sendByte (p : SendPos)
  | sl0 (hf : Bool) (bytes : List Byte)
  | sendLine (p : SendPos) (stage : Stage) (rest : List Byte)
  | readByte (p : PopPos)
  | rxLen (p : LenPos)
  deriving DecidableEq, Repr

/-- `irq.pc`: a handler is one atomic transition, so its only value is IDLE (R28). -/
inductive IrqPos where
  | idle
  deriving DecidableEq, Repr

/-- The position of a stand-alone RingBuffer's producer context (R203, R110). -/
inductive ProdPos where
  | idle
  | push (p : PushPos)
  | len (p : LenPos)
  deriving DecidableEq, Repr

/-- The position of a stand-alone RingBuffer's consumer context (R203, R110). -/
inductive ConsPos where
  | idle
  | pop (p : PopPos)
  | len (p : LenPos)
  deriving DecidableEq, Repr

/-- The micro-step labels a position can have, `ctx.pc` (R28). -/
inductive Label where
  | idle | sl0
  | pu1 | pu2 | pu3 | pu4 | ar1
  | po1 | po2 | po3 | po4
  | ln1 | ln2
  deriving DecidableEq, Repr

/-- The TX arming state (R25, R146). -/
inductive TxState where
  | txIdle | txActive
  deriving DecidableEq, Repr

/-- The answer of one micro-step: the operation goes on at a position, or ends with a result. -/
inductive Progress (P R : Type) where
  | more (p : P)
  | done (r : R)
  deriving DecidableEq, Repr

/-- `Result<(), Full>` (R111, R221). -/
inductive PushResult where
  | ok | full
  deriving DecidableEq, Repr

/-- `Option<byte>` (R112, R223). -/
inductive PopResult where
  | some (v : Byte)
  | empty
  deriving DecidableEq, Repr

/-- A received sample (data, fe, ovr) (R32). -/
structure Sample where
  data : Byte
  fe : Bool
  ovr : Bool
  deriving DecidableEq, Repr

/-- One primitive call of `hal_log`, with its argument (R32, R190 to R198). -/
inductive HalCall where
  | writeTxRegister (v : Byte)
  | readRxRegister
  | setTxInterruptEnabled (b : Bool)
  | queryFramingError
  | queryOverrun
  | rxDisable
  | rxEnable
  | configureLine
  deriving DecidableEq, Repr

/-- The state of the hardware collaborator (R31, R32); `txLog` and `halLog` are the spec's ghosts,
`rxArrived` is the model's: every sample that arrived, in order (R202, log 14). -/
structure Collaborator where
  txArmed : Bool
  rxIrqEnabled : Bool
  rxEnabled : Bool
  configured : Bool
  txRegEmpty : Bool
  rxSample : Option Sample
  txLog : List Byte
  halLog : List HalCall
  rxArrived : List Sample
  deriving DecidableEq, Repr

/-- The two ports of a stand-alone RingBuffer (R84). -/
inductive RbPort where
  | prod | cons
  deriving DecidableEq, Repr

/-- How a word given to a port is performed (R87): the whole operation with no other agent stepping in
between, or only issued, its micro-steps left to later turns. -/
inductive WordMode where
  | whole | issue
  deriving DecidableEq, Repr

/-- The contexts that step one micro-step at a time (R203). -/
inductive Context where
  | fg | prod | cons
  deriving DecidableEq, Repr

/-- One turn of the schedule (R87, R203, log 6): a command word at a port, with the line data that
accompanies it (R83), or one micro-step of a context. -/
inductive Turn where
  | word (port : Port) (mode : WordMode) (cw : Word) (line : List Byte)
  | micro (c : Context)
  deriving DecidableEq, Repr

/-- Everything the spec gives the machine, and the model's own fields named in INVENTORY.md. -/
structure State where
  tx : RingBuffer
  rx : RingBuffer
  rb : RingBuffer
  fg : FgPos
  irqPc : IrqPos
  prod : ProdPos
  cons : ConsPos
  hal : Collaborator
  gie : Bool
  inited : Bool
  lineData : List Byte
  rbPort : RbPort
  respLog : List (Port × Word)
  rxRead : List (Sample × Bool)
  draws : Nat
  agenda : List Turn
  deriving DecidableEq, Repr

/-- Why the machine stops with a fault. -/
inductive Fault where
  /-- Raised by every operation, micro-step and handler that meets an index register or a snapshot outside
  [0, N): "must treat it as a fault of the model" (R51).  Safe: no state with indices in range reaches it. -/
  | indexOutOfRange
  /-- Raised by WRITE_TX_REGISTER put to the collaborator while `tx_reg_empty == 0` (R191, U14).  Safe:
  the block's own writes never reach it (R281 I7). -/
  | txRegisterNotReady
  deriving DecidableEq, Repr

/-- Why the machine has no step. -/
inductive Refusal where
  /-- Raised by no arm any more: an instruction without a meaning.  Safe. -/
  | notModelled (mnemonic : String)
  /-- Raised by SEND_BYTE, SEND_LINE, READ_BYTE, RX_LEN, IRQ_RX, IRQ_TX while `inited == 0`: "a model asked
  to perform one refuses" (R263, U1).  Safe. -/
  | beforeInit
  /-- Raised by INIT while `inited == 1`: refused (R264, U2).  Safe. -/
  | secondInit
  /-- Raised by INIT while `gie == 1`: refused (R264, U3).  Safe. -/
  | initWithInterruptsOn
  /-- Raised by a command to a context whose operation has not returned: re-entrant use, refused
  (R201, R268, U4).  Safe. -/
  | contextBusy
  /-- Raised by a micro-step turn of an idle context: the step relation offers none (R203).  Safe. -/
  | nothingInProgress
  /-- Raised by a port that takes the word's format but not the operation (RB_POP at the producer, RB_PUSH at the
  consumer, an ENV word of the other agent), and by the interrupt context asked for an operation that is no
  handler: an operation by a context that does not hold its role, refused (R237, D20, U4).  Safe. -/
  | wrongContext
  /-- Raised by IRQ_RX and IRQ_TX when R229 does not allow the handler to be taken: no step (T-D16).  Safe. -/
  | handlerNotTaken
  /-- Raised by ENV_TX_READY when R199 does not enable it: no step (C9).  Safe. -/
  | txReadyNotEnabled
  /-- Raised by ENV_RX_ARRIVE when R200 does not enable it: no step.  Safe. -/
  | rxArriveNotEnabled
  deriving DecidableEq, Repr

/-- A buffer's N (log 1): the capacity `c` stands for c + 2, so 2 <= N <= 256 (R5, R116). -/
def RingBuffer.n (B : RingBuffer) : Nat := B.cap.val + 2

/-- A buffer at power-on: the given capacity and indices reduced into [0, N), no slot written. -/
def RingBuffer.powerOn (space : Space) (cap : Capacity) (head tail : Nat) : RingBuffer :=
  { space := space, cap := cap, storage := [], head := head % (cap.val + 2), tail := tail % (cap.val + 2),
    pushed := [], popped := [] }

/-- The state at power-on, before INIT (R35 column "at power-on", R260).  What R35 calls unspecified is a
free value (logs 2, 3, 4); the stand-alone buffer is empty (log 5). -/
def State.reset : State where
  tx := RingBuffer.powerOn .tx Config.txCapacity Config.powerOnTxHead Config.powerOnTxTail
  rx := RingBuffer.powerOn .rx Config.rxCapacity Config.powerOnRxHead Config.powerOnRxTail
  rb := { space := .rb, cap := Config.rbCapacity, storage := [], head := 0, tail := 0, pushed := [], popped := [] }
  fg := .idle
  irqPc := .idle
  prod := .idle
  cons := .idle
  hal :=
    { txArmed := Config.powerOnTxArmed, rxIrqEnabled := Config.powerOnRxIrqEnabled,
      rxEnabled := Config.powerOnRxEnabled, configured := false, txRegEmpty := Config.powerOnTxRegEmpty,
      rxSample := none, txLog := [], halLog := [], rxArrived := [] }
  gie := false
  inited := false
  lineData := []
  rbPort := .prod
  respLog := []
  rxRead := []
  draws := 0
  agenda := []

end Sys2Proof.Machine
end

