-- ==== Sys2Proof/Machine/Ops.lean ====
section
/-! DEFINITION. The shared operations: storage access (R33, R51 to R53), index arithmetic (R115), the
named updates of State, response words (R82), the collaborator's primitives (R191 to R198), and
taking a handler and returning from it (R229, R233, R234). -/

namespace Sys2Proof.Machine

/-- The outcome type of every meaning. -/
abbrev Result := Host.Outcome State Fault Refusal

/-! ## Storage -/

/-- The byte listed for slot `a`; `none` where no push has written the slot (log 3). -/
def Memory.read : Memory → Nat → Option Byte
  | [], _ => none
  | (b, v) :: rest, a => if a = b then some v else Memory.read rest a

/-- Store byte `v` in slot `a`, keeping the slots strictly rising. -/
def Memory.write : Memory → Nat → Byte → Memory
  | [], a, v => [(a, v)]
  | (b, w) :: rest, a, v =>
    if a < b then (a, v) :: (b, w) :: rest
    else if a = b then (a, v) :: rest
    else (b, w) :: Memory.write rest a v

/-- The canonical form: slots strictly rising.  An unlisted slot reads as no value, so no entry can
repeat it. -/
abbrev Memory.wf (m : Memory) : Prop := m.Pairwise (fun x y => x.1 < y.1)

/-- The number of a storage space, for the free byte of an unwritten slot. -/
def Space.number : Space → Nat
  | .tx => 0
  | .rx => 1
  | .rb => 2

/-- `MemRead(B:i, 1)` (R7): the byte in slot `i`; a slot no push has written holds an unspecified byte
(R35, U7), the free value `Config.unwrittenByte` (log 3). -/
def RingBuffer.readSlot (B : RingBuffer) (i : Nat) : Byte :=
  match B.storage.read i with
  | some v => v
  | none => Config.unwrittenByte B.space.number i

/-- `MemWrite(B:i, 1, v)` (R7). -/
def RingBuffer.writeSlot (B : RingBuffer) (i : Nat) (v : Byte) : RingBuffer :=
  { B with storage := B.storage.write i v }

/-! ## Index arithmetic -/

/-- `(x + 1) mod N` (R115 a). -/
def advance (n x : Nat) : Nat := (x + 1) % n

/-- `(h - t) mod N`, the mathematical residue (R6, R115 b). -/
def residue (n h t : Nat) : Nat := (((h : Int) - (t : Int)) % (n : Int)).toNat

/-- `occ(B) = (head - tail) mod N` (R21, R36). -/
def RingBuffer.occ (B : RingBuffer) : Nat := residue B.n B.head B.tail

/-- `contents(B)`, oldest first (R36). -/
def RingBuffer.contents (B : RingBuffer) : List Byte :=
  (List.range B.occ).map (fun k => B.readSlot ((B.tail + k) % B.n))

/-- Both index registers are in [0, N) (R37, R51). -/
def RingBuffer.inRange (B : RingBuffer) : Bool := decide (B.head < B.n) && decide (B.tail < B.n)

/-! ## Named updates of State -/

def State.withTx (s : State) (B : RingBuffer) : State := { s with tx := B }
def State.withRx (s : State) (B : RingBuffer) : State := { s with rx := B }
def State.withRb (s : State) (B : RingBuffer) : State := { s with rb := B }
def State.withFg (s : State) (p : FgPos) : State := { s with fg := p }
def State.withProd (s : State) (p : ProdPos) : State := { s with prod := p }
def State.withCons (s : State) (p : ConsPos) : State := { s with cons := p }
def State.withHal (s : State) (c : Collaborator) : State := { s with hal := c }
def State.withGie (s : State) (b : Bool) : State := { s with gie := b }
def State.withInited (s : State) (b : Bool) : State := { s with inited := b }

/-- One draw has been used (R7 `draw x`). -/
def State.drawn (s : State) : State := { s with draws := s.draws + 1 }

/-- A port answers a response word (R82, R204). -/
def State.answer (s : State) (p : Port) (rw : Word) : State := { s with respLog := s.respLog ++ [(p, rw)] }

/-- IRQ_RX has read sample `x`; `room` says whether the RX buffer had a free slot (ghost, R281 I5, log 14). -/
def State.noteRead (s : State) (x : Sample) (room : Bool) : State := { s with rxRead := s.rxRead ++ [(x, room)] }

/-! ## Response words (R82) -/

/-- `RW[15:8]` = status, `RW[7:0]` = data. -/
def response (status data : Byte) : Word := status ++ data

/-- Status OK with a data byte. -/
def rwOk (data : Byte) : Word := response 0x00#8 data
/-- Status FULL. -/
def rwFull : Word := response 0x01#8 0x00#8
/-- Status EMPTY with `EMPTY_SENTINEL`. -/
def rwEmpty : Word := response 0x02#8 Config.emptySentinel
/-- Status INVALID_INPUT. -/
def rwInvalidInput : Word := response 0x03#8 0x00#8
/-- Status ILLEGAL. -/
def rwIllegal : Word := response 0xFF#8 0x00#8

/-- A response word carried as two bytes: the status byte first (R50, D29). -/
def responseBytes (rw : Word) : List Byte := [rw.extractLsb' 8 8, rw.extractLsb' 0 8]

/-- The response of a push (R111). -/
def PushResult.rw : PushResult → Word
  | .ok => rwOk 0x00#8
  | .full => rwFull

/-- The response of a pop (R112). -/
def PopResult.rw : PopResult → Word
  | .some v => rwOk v
  | .empty => rwEmpty

/-- The response of a length: at most 255, so it fits the data byte (R82). -/
def lengthRw (k : Nat) : Word := rwOk (BitVec.ofNat 8 k)

/-- The response of a flag query: data 0 or 1 (R82). -/
def flagRw (b : Bool) : Word := rwOk (if b then 0x01#8 else 0x00#8)

/-! ## The collaborator's primitives: each is appended to `hal_log` when performed -/

/-- WRITE_TX_REGISTER (R191). -/
def Collaborator.writeTxRegister (c : Collaborator) (v : Byte) : Collaborator :=
  { c with txLog := c.txLog ++ [v], txRegEmpty := false, halLog := c.halLog ++ [.writeTxRegister v] }

/-- READ_RX_REGISTER, the effect (R192). -/
def Collaborator.readRxRegister (c : Collaborator) : Collaborator :=
  { c with rxSample := none, halLog := c.halLog ++ [.readRxRegister] }

/-- SET_TX_INTERRUPT_ENABLED (R193). -/
def Collaborator.setTxInterruptEnabled (c : Collaborator) (b : Bool) : Collaborator :=
  { c with txArmed := b, halLog := c.halLog ++ [.setTxInterruptEnabled b] }

/-- QUERY_FRAMING_ERROR, the effect (R194). -/
def Collaborator.queryFramingError (c : Collaborator) : Collaborator :=
  { c with halLog := c.halLog ++ [.queryFramingError] }

/-- QUERY_OVERRUN, the effect (R195). -/
def Collaborator.queryOverrun (c : Collaborator) : Collaborator :=
  { c with halLog := c.halLog ++ [.queryOverrun] }

/-- RX_DISABLE (R196). -/
def Collaborator.rxDisable (c : Collaborator) : Collaborator :=
  { c with rxEnabled := false, rxSample := none, halLog := c.halLog ++ [.rxDisable] }

/-- RX_ENABLE (R197). -/
def Collaborator.rxEnable (c : Collaborator) : Collaborator :=
  { c with rxEnabled := true, halLog := c.halLog ++ [.rxEnable] }

/-- CONFIGURE_LINE with its draw (R198). -/
def Collaborator.configureLine (c : Collaborator) (draw : Bool) : Collaborator :=
  { c with configured := true, rxEnabled := true, rxIrqEnabled := true, rxSample := none,
           txRegEmpty := draw, halLog := c.halLog ++ [.configureLine] }

/-- `hal.WRITE_TX_REGISTER(v)`. -/
def halWriteTxRegister (v : Byte) (s : State) : State := s.withHal (s.hal.writeTxRegister v)

/-- `hal.SET_TX_INTERRUPT_ENABLED(b)`. -/
def halSetTxInterruptEnabled (b : Bool) (s : State) : State := s.withHal (s.hal.setTxInterruptEnabled b)

/-- `hal.RX_DISABLE()`. -/
def halRxDisable (s : State) : State := s.withHal s.hal.rxDisable

/-- `hal.RX_ENABLE()`. -/
def halRxEnable (s : State) : State := s.withHal s.hal.rxEnable

/-- `hal.CONFIGURE_LINE()`: the readiness of the transmit register is a draw (R198, U8; log 9). -/
def halConfigureLine (s : State) : State :=
  (s.withHal (s.hal.configureLine (Config.drawTxReady s.draws))).drawn

/-- `hal.READ_RX_REGISTER()`: the waiting byte; with no sample waiting the value is free (log 10). -/
def halReadRxRegister (s : State) : Byte × State :=
  match s.hal.rxSample with
  | some x => (x.data, s.withHal s.hal.readRxRegister)
  | none => (Config.drawByte s.draws, (s.withHal s.hal.readRxRegister).drawn)

/-- `hal.QUERY_FRAMING_ERROR()`: the `fe` of the waiting sample; with none waiting it is free (log 10). -/
def halQueryFramingError (s : State) : Bool × State :=
  match s.hal.rxSample with
  | some x => (x.fe, s.withHal s.hal.queryFramingError)
  | none => (Config.drawFlag s.draws, (s.withHal s.hal.queryFramingError).drawn)

/-- `hal.QUERY_OVERRUN()`: the `ovr` of the waiting sample; with none waiting it is free (log 10). -/
def halQueryOverrun (s : State) : Bool × State :=
  match s.hal.rxSample with
  | some x => (x.ovr, s.withHal s.hal.queryOverrun)
  | none => (Config.drawFlag s.draws, (s.withHal s.hal.queryOverrun).drawn)

/-! ## Taking a handler, and returning from it -/

/-- Handler entry: the block saves nothing, changes no mask and records no cause; `fg.pc` and the
foreground's locals are kept untouched (R233). -/
def handlerEntry (s : State) : State := s

/-- Handler return: the block restores nothing and re-enables nothing (R234). -/
def handlerReturn (s : State) : State := s

/-- A handler is taken when its request is 1, `gie == 1`, `inited == 1` and no handler is running (R229);
it is one atomic transition (R170).  `inRange` says that the buffer it works on has its indices in
[0, N) (R51). -/
def takeHandler (request inRange : Bool) (body : State → State) (s : State) : Result :=
  if s.inited = false then .refused .beforeInit
  else if request && s.gie && decide (s.irqPc = .idle) then
    if inRange then .next (handlerReturn (body (handlerEntry s))) else .fault .indexOutOfRange
  else .refused .handlerNotTaken

end Sys2Proof.Machine
end

