-- ==== Sys2Proof/Machine/Flags.lean ====
section
/-! DEFINITION. The block has no flag register and no condition codes (R30).  What stands in their place
are functions of the state: the two interrupt requests (R34, R229), the TX arming state (R25) and the
empty and full tests of a buffer (R21). -/

namespace Sys2Proof.Machine

/-- `req_tx = tx_armed and tx_reg_empty`, a level (R229, C7). -/
def Collaborator.reqTx (c : Collaborator) : Bool := c.txArmed && c.txRegEmpty

/-- `req_rx = rx_irq_enabled and rx_enabled and (rx_sample != none)`, a level (R229). -/
def Collaborator.reqRx (c : Collaborator) : Bool := c.rxIrqEnabled && c.rxEnabled && c.rxSample.isSome

/-- The TX arming state is `tx_armed` and nothing else: TX_IDLE = 0, TX_ACTIVE = 1 (R25, R89, D24). -/
def Collaborator.txState (c : Collaborator) : TxState := if c.txArmed then .txActive else .txIdle

/-- `B.head == B.tail`: the buffer is empty (R21). -/
def RingBuffer.isEmpty (B : RingBuffer) : Bool := decide (B.head = B.tail)

/-- `(B.head + 1) mod N == B.tail`: the buffer is full (R21). -/
def RingBuffer.isFull (B : RingBuffer) : Bool := decide (advance B.n B.head = B.tail)

end Sys2Proof.Machine
end

