-- ==== Sys2Proof/Machine/Micro.lean ====
section
/-! DEFINITION. The micro-steps of the three RingBuffer operations (R111 to R113), one function per
operation, and their runs with no other agent stepping in between (R117). -/

namespace Sys2Proof.Machine

/-- One micro-step of RB_PUSH (R111): PU1, PU2 with its test, PU3, PU4.  At PU4 the ghost `pushed` gains
the byte (R63). -/
def pushMicro (p : PushPos) (B : RingBuffer) : RingBuffer × Progress PushPos PushResult :=
  match p with
  | .pu1 v => (B, .more (.pu2 v B.head))
  | .pu2 v h =>
    if advance B.n h = B.tail then (B, .done .full)
    else (B, .more (.pu3 v h B.tail (advance B.n h)))
  | .pu3 v h t next => (B.writeSlot h v, .more (.pu4 v h t next))
  | .pu4 v _ _ next => ({ B with head := next, pushed := B.pushed ++ [v] }, .done .ok)

/-- One micro-step of RB_POP (R112): PO1, PO2 with its test, PO3, PO4.  At PO4 the ghost `popped` gains the
byte (R63). -/
def popMicro (p : PopPos) (B : RingBuffer) : RingBuffer × Progress PopPos PopResult :=
  match p with
  | .po1 => (B, .more (.po2 B.head))
  | .po2 h => if h = B.tail then (B, .done .empty) else (B, .more (.po3 h B.tail))
  | .po3 h t => (B, .more (.po4 h t (B.readSlot t)))
  | .po4 _ t v => ({ B with tail := advance B.n t, popped := B.popped ++ [v] }, .done (.some v))

/-- One micro-step of RB_LEN (R113): LN1, LN2.  It writes nothing. -/
def lenMicro (p : LenPos) (B : RingBuffer) : Progress LenPos Nat :=
  match p with
  | .ln1 => .more (.ln2 B.head)
  | .ln2 h => .done (residue B.n h B.tail)

/-- The label of a push's position (R28). -/
def PushPos.label : PushPos → Label
  | .pu1 _ => .pu1
  | .pu2 _ _ => .pu2
  | .pu3 _ _ _ _ => .pu3
  | .pu4 _ _ _ _ => .pu4

/-- The label of a pop's position (R28). -/
def PopPos.label : PopPos → Label
  | .po1 => .po1
  | .po2 _ => .po2
  | .po3 _ _ => .po3
  | .po4 _ _ _ => .po4

/-- The label of a length's position (R28). -/
def LenPos.label : LenPos → Label
  | .ln1 => .ln1
  | .ln2 _ => .ln2

/-- At most `k` micro-steps of a push. -/
def runPush : Nat → PushPos → RingBuffer → RingBuffer × PushResult
  | 0, _, B => (B, .ok)
  | k + 1, p, B =>
    match pushMicro p B with
    | (B', .done r) => (B', r)
    | (B', .more p') => runPush k p' B'

/-- At most `k` micro-steps of a pop. -/
def runPop : Nat → PopPos → RingBuffer → RingBuffer × PopResult
  | 0, _, B => (B, .empty)
  | k + 1, p, B =>
    match popMicro p B with
    | (B', .done r) => (B', r)
    | (B', .more p') => runPop k p' B'

/-- `push(B, v)`, PU1 to PU4 with no other agent in between. -/
def pushWhole (v : Byte) (B : RingBuffer) : RingBuffer × PushResult := runPush 4 (.pu1 v) B

/-- `pop(B)`, PO1 to PO4 with no other agent in between. -/
def popWhole (B : RingBuffer) : RingBuffer × PopResult := runPop 4 .po1 B

/-- The snapshots a push holds are in [0, N) (R51). -/
def PushPos.inRange (n : Nat) : PushPos → Bool
  | .pu1 _ => true
  | .pu2 _ h => decide (h < n)
  | .pu3 _ h t next => decide (h < n) && decide (t < n) && decide (next < n)
  | .pu4 _ h t next => decide (h < n) && decide (t < n) && decide (next < n)

/-- The snapshots a pop holds are in [0, N) (R51). -/
def PopPos.inRange (n : Nat) : PopPos → Bool
  | .po1 => true
  | .po2 h => decide (h < n)
  | .po3 h t => decide (h < n) && decide (t < n)
  | .po4 h t _ => decide (h < n) && decide (t < n)

/-- The snapshot a length holds is in [0, N) (R51). -/
def LenPos.inRange (n : Nat) : LenPos → Bool
  | .ln1 => true
  | .ln2 h => decide (h < n)

/-! ## The stand-alone RingBuffer's two contexts (R203) -/

/-- One micro-step of the producer context. -/
def prodMicro (s : State) : State :=
  match s.prod with
  | .idle => s
  | .push p =>
    match pushMicro p s.rb with
    | (B, .more p') => (s.withRb B).withProd (.push p')
    | (B, .done r) => ((s.withRb B).withProd .idle).answer .prod r.rw
  | .len p =>
    match lenMicro p s.rb with
    | .more p' => s.withProd (.len p')
    | .done k => (s.withProd .idle).answer .prod (lengthRw k)

/-- One micro-step of the consumer context. -/
def consMicro (s : State) : State :=
  match s.cons with
  | .idle => s
  | .pop p =>
    match popMicro p s.rb with
    | (B, .more p') => (s.withRb B).withCons (.pop p')
    | (B, .done r) => ((s.withRb B).withCons .idle).answer .cons r.rw
  | .len p =>
    match lenMicro p s.rb with
    | .more p' => s.withCons (.len p')
    | .done k => (s.withCons .idle).answer .cons (lengthRw k)

/-- At most `k` micro-steps of the producer, to the end of its operation. -/
def runProd : Nat → State → State
  | 0, s => s
  | k + 1, s => if s.prod = .idle then s else runProd k (prodMicro s)

/-- At most `k` micro-steps of the consumer, to the end of its operation. -/
def runCons : Nat → State → State
  | 0, s => s
  | k + 1, s => if s.cons = .idle then s else runCons k (consMicro s)

/-- The indices the producer's next micro-step works with are in range (R51). -/
def prodInRange (s : State) : Bool :=
  match s.prod with
  | .idle => true
  | .push p => s.rb.inRange && p.inRange s.rb.n
  | .len p => s.rb.inRange && p.inRange s.rb.n

/-- The indices the consumer's next micro-step works with are in range (R51). -/
def consInRange (s : State) : Bool :=
  match s.cons with
  | .idle => true
  | .pop p => s.rb.inRange && p.inRange s.rb.n
  | .len p => s.rb.inRange && p.inRange s.rb.n

/-- A command to the producer port: `pc <-` the first micro-step; at most one operation per role is in
progress (R110 b, R203, R268). -/
def issueProd (p : ProdPos) (s : State) : Result :=
  if s.prod ≠ .idle then .refused .contextBusy
  else if prodInRange (s.withProd p) then .next (s.withProd p)
  else .fault .indexOutOfRange

/-- A command to the consumer port. -/
def issueCons (p : ConsPos) (s : State) : Result :=
  if s.cons ≠ .idle then .refused .contextBusy
  else if consInRange (s.withCons p) then .next (s.withCons p)
  else .fault .indexOutOfRange

/-- A micro-step turn of the producer (R203). -/
def prodTurn (s : State) : Result :=
  if s.prod = .idle then .refused .nothingInProgress
  else if prodInRange s then .next (prodMicro s)
  else .fault .indexOutOfRange

/-- A micro-step turn of the consumer (R203). -/
def consTurn (s : State) : Result :=
  if s.cons = .idle then .refused .nothingInProgress
  else if consInRange s then .next (consMicro s)
  else .fault .indexOutOfRange

/-- What an issued operation does when it is then run to its end with no other agent in between. -/
def andThen (r : Result) (run : State → State) : Result :=
  match r with
  | .next s => .next (run s)
  | .fault e => .fault e
  | .refused e => .refused e

end Sys2Proof.Machine
end

