-- ==== Sys2Proof/Machine/Operands.lean ====
section
/-! DEFINITION. Operand assembly (R83).  A byte or a boolean operand is used as it is (the decoder has
already read it); the one operand that is not in the command word is the line of SEND_LINE. -/

namespace Sys2Proof.Machine

/-- The line of SEND_LINE: with a data handle, the finite byte sequence at the line-data port (D18). -/
def lineOperand (h : Bool) (s : State) : List Byte := if h then s.lineData else []

/-- A command comes with its line data (R83), and an RB word with the port it stands at (R84). -/
def present (p : Port) (line : List Byte) (s : State) : State :=
  { s with lineData := line,
           rbPort := match p with
             | .prod => .prod
             | .cons => .cons
             | _ => s.rbPort }

/-- The port of the RB word being performed. -/
def RbPort.port : RbPort → Port
  | .prod => .prod
  | .cons => .cons

/-- The port an operation belongs to (R84); RB_LEN belongs to either port of the stand-alone buffer. -/
def portOf (i : Instr) (s : State) : Port :=
  match i with
  | .rbPush _ => .prod
  | .rbPop => .cons
  | .rbLen => s.rbPort.port
  | .init | .sendByte _ | .sendLine _ | .readByte | .rxLen => .fg
  | .irqRx | .irqTx => .irq
  | .writeTxRegister _ | .readRxRegister | .setTxInterruptEnabled _ | .queryFramingError
  | .queryOverrun | .rxDisable | .rxEnable | .configureLine => .hal
  | .envTxReady | .envRxArrive _ _ _ => .env
  | .hostGie _ => .host

end Sys2Proof.Machine
end

