-- ==== Sys2Proof/Machine/Foreground.lean ====
section
/-! DEFINITION. The micro-steps of the foreground context (R142 to R145, R203) and its runs. -/

namespace Sys2Proof.Machine

/-- One micro-step of a SEND_BYTE: a micro-step of its push on TX; a push that ended Full ends it; a push
that ended Ok goes on to AR1, which arms unconditionally (R142). -/
def sendMicro (p : SendPos) (s : State) : State × Progress SendPos PushResult :=
  match p with
  | .push q =>
    match pushMicro q s.tx with
    | (B, .more q') => (s.withTx B, .more (.push q'))
    | (B, .done .full) => (s.withTx B, .done .full)
    | (B, .done .ok) => (s.withTx B, .more .ar1)
  | .ar1 => (halSetTxInterruptEnabled true s, .done .ok)

/-- The label of a SEND_BYTE's position (R28). -/
def SendPos.label : SendPos → Label
  | .push p => p.label
  | .ar1 => .ar1

/-- `fg.pc` as a label (R28). -/
def FgPos.label : FgPos → Label
  | .idle => .idle
  | .sendByte p => p.label
  | .sl0 _ _ => .sl0
  | .sendLine p _ _ => p.label
  | .readByte p => p.label
  | .rxLen p => p.label

/-- The first inner SEND_BYTE of a line (R143 SL1 to SL3): byte, stage, remaining bytes. -/
def lineFirst : List Byte → Byte × Stage × List Byte
  | b :: rest => (b, .body, rest)
  | [] => (Config.cr, .cr, [])

/-- The inner SEND_BYTE after one of the given stage (R143); none after LF. -/
def lineNext : Stage → List Byte → Option (Byte × Stage × List Byte)
  | .body, rest => some (lineFirst rest)
  | .cr, _ => some (Config.lf, .lf, [])
  | .lf, _ => none

/-- The foreground at the first micro-step of an inner SEND_BYTE. -/
def lineAt (x : Byte × Stage × List Byte) : FgPos := .sendLine (.push (.pu1 x.1)) x.2.1 x.2.2

/-- One micro-step of the foreground; on the last one of an operation the response is returned and
`fg.pc <- IDLE` (R203).  SL1 to SL3 only sequence: they take no micro-step of their own (R280, T-D10). -/
def fgMicro (s : State) : State :=
  match s.fg with
  | .idle => s
  | .sendByte p =>
    match sendMicro p s with
    | (s', .more p') => s'.withFg (.sendByte p')
    | (s', .done r) => (s'.withFg .idle).answer .fg r.rw
  | .sl0 hf bytes =>
    if hf then s.withFg (lineAt (lineFirst bytes))
    else (s.withFg .idle).answer .fg rwInvalidInput
  | .sendLine p stage rest =>
    match sendMicro p s with
    | (s', .more p') => s'.withFg (.sendLine p' stage rest)
    | (s', .done _) =>
      match lineNext stage rest with
      | some x => s'.withFg (lineAt x)
      | none => (s'.withFg .idle).answer .fg (rwOk 0x00#8)
  | .readByte p =>
    match popMicro p s.rx with
    | (B, .more p') => (s.withRx B).withFg (.readByte p')
    | (B, .done r) => ((s.withRx B).withFg .idle).answer .fg r.rw
  | .rxLen p =>
    match lenMicro p s.rx with
    | .more p' => s.withFg (.rxLen p')
    | .done k => (s.withFg .idle).answer .fg (lengthRw k)

/-- At most `k` micro-steps of the foreground, to the end of its operation. -/
def runFg : Nat → State → State
  | 0, s => s
  | k + 1, s => if s.fg = .idle then s else runFg k (fgMicro s)

/-- The most micro-steps an operation takes from its first one (R280). -/
def FgPos.bound : FgPos → Nat
  | .idle => 0
  | .sendByte _ => 5
  | .sl0 _ bytes => 1 + 5 * (bytes.length + 2)
  | .sendLine _ _ rest => 5 * (rest.length + 3)
  | .readByte _ => 4
  | .rxLen _ => 2

/-- The snapshots a SEND_BYTE holds are in range (R51). -/
def SendPos.inRange (n : Nat) : SendPos → Bool
  | .push p => p.inRange n
  | .ar1 => true

/-- The indices the foreground's next micro-step works with are in range (R51). -/
def fgInRange (s : State) : Bool :=
  match s.fg with
  | .idle => true
  | .sendByte p => s.tx.inRange && p.inRange s.tx.n
  | .sl0 hf _ => !hf || s.tx.inRange
  | .sendLine p _ _ => s.tx.inRange && p.inRange s.tx.n
  | .readByte p => s.rx.inRange && p.inRange s.rx.n
  | .rxLen p => s.rx.inRange && p.inRange s.rx.n

/-- HOST_CMD(op) for SEND_BYTE, SEND_LINE, READ_BYTE, RX_LEN (R203): enabled when `inited == 1` and
`fg.pc == IDLE`; `fg.pc <-` the first micro-step, locals set. -/
def issueFg (p : FgPos) (s : State) : Result :=
  if s.inited = false then .refused .beforeInit
  else if s.fg ≠ .idle then .refused .contextBusy
  else if fgInRange (s.withFg p) then .next (s.withFg p)
  else .fault .indexOutOfRange

/-- A micro-step turn of the foreground (R203). -/
def fgTurn (s : State) : Result :=
  if s.fg = .idle then .refused .nothingInProgress
  else if fgInRange s then .next (fgMicro s)
  else .fault .indexOutOfRange

end Sys2Proof.Machine
end

