-- ==== Sys2Proof/Machine/Driver.lean ====
section
/-! DEFINITION. The meanings of the FG operations: INIT, SEND_BYTE, SEND_LINE, READ_BYTE, RX_LEN (R141 to
R145), performed whole (R87; log 7). -/

namespace Sys2Proof.Machine

/-- A buffer's indices to 0: empty (R141, D6); the storage is not written (R35). -/
def RingBuffer.emptied (B : RingBuffer) : RingBuffer := { B with head := 0, tail := 0 }

/-- The one atomic step of INIT (R141). -/
def initBody (s : State) : State :=
  let s1 := halSetTxInterruptEnabled false (halConfigureLine s)
  let s2 := s1.withTx s1.tx.emptied
  let s3 := s2.withRx s2.rx.emptied
  (s3.withInited true).answer .fg (rwOk 0x00#8)

/-- INIT (R141): enabled when `inited == 0`, `gie == 0`, `fg.pc == IDLE`; otherwise refused (R264). -/
def execInit (s : State) : Result :=
  if s.inited then .refused .secondInit
  else if s.gie then .refused .initWithInterruptsOn
  else if s.fg ≠ .idle then .refused .contextBusy
  else .next (initBody s)

/-- SEND_BYTE (R142). -/
def execSendByte (v : Byte) (s : State) : Result :=
  andThen (issueFg (.sendByte (.push (.pu1 v))) s) (runFg (FgPos.sendByte (.push (.pu1 v))).bound)

/-- SEND_LINE (R143). -/
def execSendLine (h : Bool) (s : State) : Result :=
  andThen (issueFg (.sl0 h (lineOperand h s)) s) (runFg (FgPos.sl0 h (lineOperand h s)).bound)

/-- READ_BYTE (R144). -/
def execReadByte (s : State) : Result :=
  andThen (issueFg (.readByte .po1) s) (runFg (FgPos.readByte .po1).bound)

/-- RX_LEN (R145). -/
def execRxLen (s : State) : Result :=
  andThen (issueFg (.rxLen .ln1) s) (runFg (FgPos.rxLen .ln1).bound)

end Sys2Proof.Machine
end

