-- ==== Sys2Proof/Machine/Env.lean ====
section
/-! DEFINITION. The meanings of the environment and host steps (R199 to R201).  They answer nothing (R82). -/

namespace Sys2Proof.Machine

/-- ENV_TX_READY (R199): enabled when `configured == 1` and `tx_reg_empty == 0`. -/
def execEnvTxReady (s : State) : Result :=
  if s.hal.configured && !s.hal.txRegEmpty then .next (s.withHal { s.hal with txRegEmpty := true })
  else .refused .txReadyNotEnabled

/-- ENV_RX_ARRIVE (R200): enabled when `configured == 1` and `rx_enabled == 1`; a sample already waiting is
replaced. -/
def execEnvRxArrive (f o : Bool) (d : Byte) (s : State) : Result :=
  if s.hal.configured && s.hal.rxEnabled then
    .next (s.withHal { s.hal with rxSample := some { data := d, fe := f, ovr := o },
                                  rxArrived := s.hal.rxArrived ++ [{ data := d, fe := f, ovr := o }] })
  else .refused .rxArriveNotEnabled

/-- HOST_GIE (R201): always enabled. -/
def execHostGie (b : Bool) (s : State) : Result := .next (s.withGie b)

end Sys2Proof.Machine
end

