-- ==== Sys2Proof/Machine/Hal.lean ====
section
/-! DEFINITION. The meanings of the HAL operations: a primitive's word put to the collaborator's port
(R191 to R198; log 8).  Each answers a response word (R82). -/

namespace Sys2Proof.Machine

/-- WRITE_TX_REGISTER (R191); a write while the register is not ready is a fault of the model (U14). -/
def execWriteTxRegister (v : Byte) (s : State) : Result :=
  if s.hal.txRegEmpty then .next ((halWriteTxRegister v s).answer .hal (rwOk 0x00#8))
  else .fault .txRegisterNotReady

/-- READ_RX_REGISTER (R192). -/
def execReadRxRegister (s : State) : Result :=
  .next ((halReadRxRegister s).2.answer .hal (rwOk (halReadRxRegister s).1))

/-- SET_TX_INTERRUPT_ENABLED (R193). -/
def execSetTxInterruptEnabled (b : Bool) (s : State) : Result :=
  .next ((halSetTxInterruptEnabled b s).answer .hal (rwOk 0x00#8))

/-- QUERY_FRAMING_ERROR (R194). -/
def execQueryFramingError (s : State) : Result :=
  .next ((halQueryFramingError s).2.answer .hal (flagRw (halQueryFramingError s).1))

/-- QUERY_OVERRUN (R195). -/
def execQueryOverrun (s : State) : Result :=
  .next ((halQueryOverrun s).2.answer .hal (flagRw (halQueryOverrun s).1))

/-- RX_DISABLE (R196). -/
def execRxDisable (s : State) : Result := .next ((halRxDisable s).answer .hal (rwOk 0x00#8))

/-- RX_ENABLE (R197). -/
def execRxEnable (s : State) : Result := .next ((halRxEnable s).answer .hal (rwOk 0x00#8))

/-- CONFIGURE_LINE (R198). -/
def execConfigureLine (s : State) : Result := .next ((halConfigureLine s).answer .hal (rwOk 0x00#8))

end Sys2Proof.Machine
end

