-- ==== Sys2Proof/Machine/Handlers.lean ====
section
/-! DEFINITION. The meanings of the two interrupt handlers (R171, R172), each one atomic transition (R170). -/

namespace Sys2Proof.Machine

/-- RXH1 to RXH5 (R171).  The push's result is discarded: a byte that meets a full buffer is dropped
silently.  The ghost `rxRead` records the sample read and whether there was room (log 14). -/
def irqRxBody (s : State) : State :=
  let (fe, s1) := halQueryFramingError s
  let (ovr, s2) := halQueryOverrun s1
  let (b, s3) := halReadRxRegister s2
  let s4 := s3.noteRead { data := b, fe := fe, ovr := ovr } (!s3.rx.isFull)
  let s5 := if fe then s4 else s4.withRx (pushWhole b s4.rx).1
  if ovr then halRxEnable (halRxDisable s5) else s5

/-- TXH1 to TXH4 (R172). -/
def irqTxBody (s : State) : State :=
  match popWhole s.tx with
  | (B, .empty) => halSetTxInterruptEnabled false (s.withTx B)
  | (B, .some v) =>
    let s1 := halWriteTxRegister v (s.withTx B)
    if s1.tx.head = s1.tx.tail then halSetTxInterruptEnabled false s1 else s1

/-- IRQ_RX (R171). -/
def execIrqRx (s : State) : Result := takeHandler s.hal.reqRx s.rx.inRange irqRxBody s

/-- IRQ_TX (R172). -/
def execIrqTx (s : State) : Result := takeHandler s.hal.reqTx s.tx.inRange irqTxBody s

end Sys2Proof.Machine
end

