-- ==== Sys2Proof/Machine/RingBuffer.lean ====
section
/-! DEFINITION. The meanings of the RB operations: the stand-alone RingBuffer's RB_PUSH, RB_POP, RB_LEN
(R111 to R113), performed whole (R87; log 7). -/

namespace Sys2Proof.Machine

/-- RB_PUSH (R111). -/
def execRbPush (v : Byte) (s : State) : Result := andThen (issueProd (.push (.pu1 v)) s) (runProd 4)

/-- RB_POP (R112). -/
def execRbPop (s : State) : Result := andThen (issueCons (.pop .po1) s) (runCons 4)

/-- RB_LEN (R113): either role may call it; the port it stands at says which context performs it. -/
def execRbLen (s : State) : Result :=
  match s.rbPort with
  | .prod => andThen (issueProd (.len .ln1) s) (runProd 2)
  | .cons => andThen (issueCons (.len .ln1) s) (runCons 2)

end Sys2Proof.Machine
end

