-- ==== Sys2Proof/Machine/Dispatch.lean ====
section
/-! DEFINITION. One arm per operation, each a direct call of its meaning. -/

namespace Sys2Proof.Machine

def exec (i : Instr) (s : State) : Host.Outcome State Fault Refusal :=
  match i with
  | .rbPush v => Sys2Proof.Machine.execRbPush v s
  | .rbPop => Sys2Proof.Machine.execRbPop s
  | .rbLen => Sys2Proof.Machine.execRbLen s
  | .init => Sys2Proof.Machine.execInit s
  | .sendByte v => Sys2Proof.Machine.execSendByte v s
  | .sendLine h => Sys2Proof.Machine.execSendLine h s
  | .readByte => Sys2Proof.Machine.execReadByte s
  | .rxLen => Sys2Proof.Machine.execRxLen s
  | .irqRx => Sys2Proof.Machine.execIrqRx s
  | .irqTx => Sys2Proof.Machine.execIrqTx s
  | .writeTxRegister v => Sys2Proof.Machine.execWriteTxRegister v s
  | .readRxRegister => Sys2Proof.Machine.execReadRxRegister s
  | .setTxInterruptEnabled b => Sys2Proof.Machine.execSetTxInterruptEnabled b s
  | .queryFramingError => Sys2Proof.Machine.execQueryFramingError s
  | .queryOverrun => Sys2Proof.Machine.execQueryOverrun s
  | .rxDisable => Sys2Proof.Machine.execRxDisable s
  | .rxEnable => Sys2Proof.Machine.execRxEnable s
  | .configureLine => Sys2Proof.Machine.execConfigureLine s
  | .envTxReady => Sys2Proof.Machine.execEnvTxReady s
  | .envRxArrive f o d => Sys2Proof.Machine.execEnvRxArrive f o d s
  | .hostGie b => Sys2Proof.Machine.execHostGie b s

end Sys2Proof.Machine
end

