-- ==== Sys2Proof/Machine/Ports.lean ====
section
/-! DEFINITION. What a port does with a word (R84, R85, R87), what a turn does (R203), and what happens when
no turn waits (log 6).  Step only calls these. -/

namespace Sys2Proof

/-- The format of the words a port takes (R84 last paragraph); `irq` stands for the interrupt context, which the
interrupt logic enters by the handler's name. -/
def Port.format : Port → Format
  | .fg => .fg
  | .prod | .cons => .rb
  | .irq => .irq
  | .hal => .hal
  | .env | .host => .env

/-- The operation is asked of a context that does not hold its role (R237): the port takes its format but belongs
to another role or agent, or the interrupt context is asked for an operation that is no handler (a handler calling
SEND_BYTE). -/
def Port.wrongContext (p : Port) (i : Instr) : Bool :=
  !p.accepts i && (decide (p.format = i.format) || decide (p = .irq))

end Sys2Proof

namespace Sys2Proof.Machine

/-- An operation that is only issued (R87, R203 HOST_CMD): a foreground or stand-alone operation is left at
its first micro-step; every other operation is one atomic step and is performed. -/
def issue (i : Instr) (s : State) : Result :=
  match i with
  | .rbPush v => issueProd (.push (.pu1 v)) s
  | .rbPop => issueCons (.pop .po1) s
  | .rbLen =>
    match s.rbPort with
    | .prod => issueProd (.len .ln1) s
    | .cons => issueCons (.len .ln1) s
  | .sendByte v => issueFg (.sendByte (.push (.pu1 v))) s
  | .sendLine h => issueFg (.sl0 h (lineOperand h s)) s
  | .readByte => issueFg (.readByte .po1) s
  | .rxLen => issueFg (.rxLen .ln1) s
  | .init | .irqRx | .irqTx
  | .writeTxRegister _ | .readRxRegister | .setTxInterruptEnabled _ | .queryFramingError
  | .queryOverrun | .rxDisable | .rxEnable | .configureLine
  | .envTxReady | .envRxArrive _ _ _ | .hostGie _ => exec i s

/-- Perform an operation in the mode asked for. -/
def perform (m : WordMode) (i : Instr) (s : State) : Result :=
  match m with
  | .whole => exec i s
  | .issue => issue i s

/-- A port receives a word: an illegal word, or a legal word of a format the port does not take, changes no
state and is answered ILLEGAL (R85, R227); an operation asked of the wrong context is refused (R237; log 20); any
other legal word is performed. -/
def deliver (p : Port) (m : WordMode) (cw : Word) (line : List Byte) (s : State) : Result :=
  match decode cw with
  | .ok i =>
    if p.accepts i then perform m i (present p line s)
    else if p.wrongContext i then .refused .wrongContext
    else .next (s.answer p rwIllegal)
  | .error _ => .next (s.answer p rwIllegal)

/-- A micro-step turn of a context. -/
def microTurn (c : Context) (s : State) : Result :=
  match c with
  | .fg => fgTurn s
  | .prod => prodTurn s
  | .cons => consTurn s

/-- One turn of the schedule. -/
def takeTurn (t : Turn) (s : State) : Result :=
  match t with
  | .word p m cw line => deliver p m cw line s
  | .micro c => microTurn c s

/-- No turn waits: a context in the middle of an operation goes on (FG, then PROD, then CONS); with every
context idle no agent moves, and the state stays (R35 last paragraph; log 6). -/
def noTurn (s : State) : Result :=
  if s.fg ≠ .idle then fgTurn s
  else if s.prod ≠ .idle then prodTurn s
  else if s.cons ≠ .idle then consTurn s
  else .next s

/-- The state with its first turn taken off the schedule. -/
def State.restAgenda (s : State) : State := { s with agenda := s.agenda.tail }

/-- The port a table word is given to: the one that takes it; an illegal word goes to the foreground port. -/
def portOfWord (cw : Word) (s : State) : Port :=
  match decode cw with
  | .ok i => portOf i s
  | .error _ => .fg

/-- The turn that gives a table word, whole, to its port, with the line the line-data port now shows. -/
def wordTurn (s : State) (cw : Word) : Turn := .word (portOfWord cw s) .whole cw s.lineData

end Sys2Proof.Machine
end

