-- ==== Sys2Proof/Machine/Step.lean ====
section
/-! DEFINITION. One step of the machine: the first turn of the schedule (R203, log 6). -/

namespace Sys2Proof.Machine

/-- The step relation of R203 under the schedule State holds. -/
def step (s : State) : Host.Outcome State Fault Refusal :=
  match s.agenda with
  | [] => noTurn s
  | t :: _ => takeTurn t s.restAgenda

/-- `s` with a table word as the next turn (log 19). -/
def State.withFetchWord (s : State) (nbits w : Nat) : State :=
  { s with agenda := wordTurn s (tableWord nbits w) :: s.agenda }

end Sys2Proof.Machine
end

