-- ==== Sys2Proof/Safety.lean ====
section
/-! DEFINITION. What a safe run is: the invariants of R281 (I1 to I7), in the inductive form that every step
keeps.  The positions' conditions are the content of R57, R58 and R62. -/

namespace Sys2Proof.Machine

/-- I1 (R37) and the shape of a storage: indices in [0, N), slots strictly rising and below N. -/
abbrev RingBuffer.shapeOk (B : RingBuffer) : Prop :=
  B.head < B.n ∧ B.tail < B.n ∧ B.storage.wf ∧ ∀ x ∈ B.storage, x.1 < B.n

/-- I3 (R63): `pushed(B) = popped(B) ++ contents(B)`. -/
abbrev RingBuffer.fifo (B : RingBuffer) : Prop := B.pushed = B.popped ++ B.contents

/-- What holds of a push in progress on `B` (R57, R62): `h` is the head, `next` its successor, and from PU3
on the slot `h` is free whatever the consumer has done since; at PU4 the slot holds the byte. -/
def RingBuffer.pushOk (B : RingBuffer) : PushPos → Bool
  | .pu1 _ => true
  | .pu2 _ h => decide (h = B.head)
  | .pu3 _ h t next =>
    decide (h = B.head) && decide (next = advance B.n h) && decide (next ≠ B.tail) && decide (t < B.n)
  | .pu4 v h t next =>
    decide (h = B.head) && decide (next = advance B.n h) && decide (next ≠ B.tail) && decide (t < B.n)
      && decide (B.readSlot h = v)

/-- What holds of a pop in progress on `B` (R58, R62): the snapshot `h` is not ahead of the head, `t` is the
tail, and from PO3 on the buffer is not empty; at PO4 the byte read is still the byte of slot `t`. -/
def RingBuffer.popOk (B : RingBuffer) : PopPos → Bool
  | .po1 => true
  | .po2 h => decide (h < B.n) && decide (residue B.n h B.tail ≤ B.occ)
  | .po3 h t => decide (h < B.n) && decide (t = B.tail) && decide (B.head ≠ B.tail)
  | .po4 h t v =>
    decide (h < B.n) && decide (t = B.tail) && decide (B.head ≠ B.tail) && decide (B.readSlot t = v)

/-- A length in progress by the consumer: its snapshot is not ahead of the head (R62). -/
def RingBuffer.lenOkByConsumer (B : RingBuffer) : LenPos → Bool
  | .ln1 => true
  | .ln2 h => decide (h < B.n) && decide (residue B.n h B.tail ≤ B.occ)

/-- A length in progress by the producer: its snapshot is the head (R113). -/
def RingBuffer.lenOkByProducer (B : RingBuffer) : LenPos → Bool
  | .ln1 => true
  | .ln2 h => decide (h = B.head)

/-- The producer's position agrees with the stand-alone buffer. -/
def State.prodOk (s : State) : Bool :=
  match s.prod with
  | .idle => true
  | .push p => s.rb.pushOk p
  | .len p => s.rb.lenOkByProducer p

/-- The consumer's position agrees with the stand-alone buffer. -/
def State.consOk (s : State) : Bool :=
  match s.cons with
  | .idle => true
  | .pop p => s.rb.popOk p
  | .len p => s.rb.lenOkByConsumer p

/-- The stand-alone RingBuffer is sound (R118, R281 I1 to I3 for it). -/
abbrev State.rbSound (s : State) : Prop :=
  s.rb.shapeOk ∧ s.rb.fifo ∧ s.prodOk = true ∧ s.consOk = true

/-- A SEND_BYTE in progress agrees with the TX buffer. -/
def RingBuffer.sendOk (B : RingBuffer) : SendPos → Bool
  | .push p => B.pushOk p
  | .ar1 => true

/-- The foreground's position agrees with the buffer it works on. -/
def State.fgOk (s : State) : Bool :=
  match s.fg with
  | .idle => true
  | .sendByte p => s.tx.sendOk p
  | .sl0 _ _ => true
  | .sendLine p _ _ => s.tx.sendOk p
  | .readByte p => s.rx.popOk p
  | .rxLen p => s.rx.lenOkByConsumer p

/-- The foreground has published a byte and not yet armed: it is between PU4 and AR1 (R26, R148). -/
def FgPos.atAr1 : FgPos → Bool
  | .sendByte .ar1 => true
  | .sendLine .ar1 _ _ => true
  | _ => false

/-- I6 (R26): a byte in TX with the interrupt masked only between PU4 and AR1 of a SEND_BYTE. -/
abbrev State.armingOk (s : State) : Prop :=
  s.tx.occ = 0 ∨ s.hal.txArmed = true ∨ s.fg.atAr1 = true

/-- I5: `pushed(RX)` is the samples read by IRQ_RX with `fe == 0` that met a non-full buffer. -/
abbrev State.rxPushedOk (s : State) : Prop :=
  s.rx.pushed = (s.rxRead.filter (fun x => !x.1.fe && x.2)).map (fun x => x.1.data)

/-- I5, the arrival order (R63, R202): the samples IRQ_RX has read, then the one that waits, are a subsequence of the
samples that arrived; what is missing was replaced before it was read. -/
abbrev State.rxArrivedOk (s : State) : Prop :=
  (s.rxRead.map Prod.fst ++ s.hal.rxSample.toList).Sublist s.hal.rxArrived

/-- A turn the step relation of R203 has: no HAL word comes from outside (R190; log 8). -/
def Turn.ofStepRelation : Turn → Bool
  | .word p _ _ _ => decide (p ≠ .hal)
  | .micro _ => true

/-- No turn to come is a HAL word from outside. -/
abbrev State.scheduled (s : State) : Prop := ∀ t ∈ s.agenda, t.ofStepRelation = true

/-- The driver before INIT (R35): nothing has happened yet. -/
abbrev State.freshOk (s : State) : Prop :=
  s.hal.configured = false ∧ s.hal.rxSample = none ∧ s.fg = .idle ∧ s.hal.txLog = [] ∧ s.rxRead = [] ∧
  s.tx.pushed = [] ∧ s.tx.popped = [] ∧ s.rx.pushed = [] ∧ s.rx.popped = []

/-- The driver after INIT: FIFO in both buffers (I3), `tx_log = popped(TX)` (I4), I5, I6, the receive side on
(R31, R197), the foreground's position sound. -/
abbrev State.runningOk (s : State) : Prop :=
  s.tx.fifo ∧ s.rx.fifo ∧ s.hal.txLog = s.tx.popped ∧ s.rxPushedOk ∧ s.rxArrivedOk ∧ s.armingOk ∧
  s.hal.configured = true ∧ s.hal.rxEnabled = true ∧ s.hal.rxIrqEnabled = true ∧ s.fgOk = true

/-- The driver is sound. -/
abbrev State.driverSound (s : State) : Prop :=
  s.scheduled ∧ s.tx.shapeOk ∧ s.rx.shapeOk ∧
  (s.inited = false → s.freshOk) ∧ (s.inited = true → s.runningOk)

/-! ## Sequences of operations and micro-steps -/

/-- Go on from a next state. -/
def continueWith (r : Result) (f : State → Result) : Result :=
  match r with
  | .next s => f s
  | .fault e => .fault e
  | .refused e => .refused e

/-- The same operation `k` times over. -/
def execMany (i : Instr) : Nat → State → Result
  | 0, s => .next s
  | k + 1, s => continueWith (exec i s) (execMany i k)

/-- `k` micro-step turns of one context (R203). -/
def microMany (c : Context) : Nat → State → Result
  | 0, s => .next s
  | k + 1, s => continueWith (microTurn c s) (microMany c k)

/-- `k` rounds of ENV_TX_READY followed by IRQ_TX. -/
def drainRounds : Nat → State → Result
  | 0, s => .next s
  | k + 1, s => continueWith (exec .envTxReady s) (fun s1 => continueWith (exec .irqTx s1) (drainRounds k))

/-! ## Infinite runs and weak fairness (R8, R199, R229) -/

/-- An infinite run of the step relation of R203: `τ k` is the turn taken in state `σ k`. -/
def IsRun (σ : Nat → State) (τ : Nat → Turn) : Prop :=
  ∀ k, step { σ k with agenda := [τ k] } = .next (σ (k + 1))

/-- The turn gives the operation's word to a port that takes it. -/
def Turn.performs (t : Turn) (i : Instr) : Prop :=
  match t with
  | .word p _ cw _ => decode cw = .ok i ∧ p.accepts i = true
  | .micro _ => False

/-- Weak fairness of an operation: if from some moment on it is always enabled, it occurs again (R199, R229). -/
def WeaklyFair (i : Instr) (σ : Nat → State) (τ : Nat → Turn) : Prop :=
  ∀ n, (∀ k ≥ n, ∃ t, exec i (σ k) = .next t) → ∃ k ≥ n, (τ k).performs i

/-- The same of the foreground's micro-steps: a foreground that stays in an operation steps again. -/
def WeaklyFairForeground (σ : Nat → State) (τ : Nat → Turn) : Prop :=
  ∀ n, (∀ k ≥ n, ∃ t, fgTurn (σ k) = .next t) → ∃ k ≥ n, τ k = .micro .fg

/-! ## Ghosts -/

/-- A buffer without its ghosts. -/
def RingBuffer.eraseGhosts (B : RingBuffer) : RingBuffer := { B with pushed := [], popped := [] }

/-- A state without its ghosts: the logs and the recorded sequences (R9 "ghost", R32, log 14).  `inited` stays: the
enabling conditions read it (R31). -/
def State.eraseGhosts (s : State) : State :=
  { s with tx := s.tx.eraseGhosts, rx := s.rx.eraseGhosts, rb := s.rb.eraseGhosts,
           hal := { s.hal with txLog := [], halLog := [], rxArrived := [] },
           respLog := [], rxRead := [] }

/-- An outcome whose next state, if any, is without its ghosts. -/
def eraseOutcome (r : Result) : Result :=
  match r with
  | .next s => .next s.eraseGhosts
  | .fault e => .fault e
  | .refused e => .refused e

end Sys2Proof.Machine
end

