-- ==== Sys2Proof/Certificates/Slice0/Obligations.lean ====
section
/-! DEFINITION. The statements for the provers, in the order of the spec's files.  Response words are written
out: 0x0000 OK, 0x0100 FULL, 0x0200 EMPTY, 0x0300 INVALID_INPUT, 0xFF00 ILLEGAL (R82). -/

open Sys2Proof Sys2Proof.Machine

/-! ## Encoding (30_encoding.md) -/

/-- Every operation with every operand is read back from its word, and from its two bytes, opcode byte first (R83,
R84, R50). -/
def Obligations.DecodeOfEncodeIsTheOperation : Prop :=
  (∀ i : Instr, decode (encode i) = .ok i) ∧
  (∀ (i : Instr) (rest : List Byte), decodeBytes (encodeBytes i ++ rest) = .ok (i, rest))

/-- No two words stand for one operation: a legal word is the word of the operation it decodes to (R84, R85). -/
def Obligations.LegalWordIsTheWordOfItsOperation : Prop :=
  ∀ (w : Word) (i : Instr), decode w = .ok i → encode i = w

/-- A word is legal exactly when a row of the opcode table matches it, and then it decodes to that row's operation; no
two rows match a common word. -/
def Obligations.LegalWordsAreThoseOfTheTable : Prop :=
  (∀ w : Word,
    (∀ r ∈ opcodeTable, r.covers w = true → ∃ i, decode w = .ok i ∧ i.mnemonic = r.mnemonic) ∧
    ((∀ r ∈ opcodeTable, r.covers w = false) → ∃ e, decode w = .error e)) ∧
  opcodeTable.Pairwise (fun r q => ∀ w : Word, ¬(r.covers w = true ∧ q.covers w = true))

/-- Words written out from the patterns of R84 decode to the operations they stand for. -/
def Obligations.WordsWrittenOutDecode : Prop :=
  decode 0b0000000101111110#16 = .ok (.rbPush 0x7E) ∧ decode 0b0000001000000000#16 = .ok .rbPop ∧
  decode 0b0001000101000001#16 = .ok (.sendByte 0x41) ∧ decode 0b0001001000000001#16 = .ok (.sendLine true) ∧
  decode 0b0010000100000000#16 = .ok .irqTx ∧ decode 0b0011001000000001#16 = .ok (.setTxInterruptEnabled true) ∧
  decode 0b0100011000110010#16 = .ok (.envRxArrive true false 0x32) ∧
  decode 0b0100100000000001#16 = .ok (.hostGie true) ∧
  decode 0b0000001000000001#16 = .error .nonzeroOperand ∧ decode 0b0001010100000000#16 = .error .unknownOpcode

/-- R85: a step whose first turn gives a port a word that no pattern of R84 matches, or a legal word of a format the port
does not take, changes no state and answers ILLEGAL, at every port, busy or not.  R237: an operation asked of a context
that does not hold its role is refused: a word of the port's own format that belongs to another role or agent, or any
operation but a handler in the interrupt context (log 20). -/
def Obligations.IllegalWordIsAnsweredAndChangesNothing : Prop :=
  ∀ (p : Port) (m : WordMode) (cw : Word) (line : List Byte) (rest : List Turn) (s : State),
    s.agenda = .word p m cw line :: rest →
    ((∀ r ∈ opcodeTable, r.covers cw = false) →
      step s = .next { s with agenda := rest, respLog := s.respLog ++ [(p, 0xFF00#16)] }) ∧
    (∀ i, decode cw = .ok i → p ≠ .irq → p.format ≠ i.format →
      step s = .next { s with agenda := rest, respLog := s.respLog ++ [(p, 0xFF00#16)] }) ∧
    (∀ i, decode cw = .ok i → p.accepts i = false → (p = .irq ∨ p.format = i.format) →
      step s = .refused .wrongContext)

/-! ## The step (43_hal.md R203) -/

/-- A step performs the first turn: a whole word is the decoded operation's exec, at its port and with its line; a table
word placed by withFetchWord is performed by the very next step. -/
def Obligations.StepPerformsTheDecodedOperation : Prop :=
  (∀ (s : State) (p : Port) (cw : Word) (line : List Byte) (rest : List Turn) (i : Instr),
    s.agenda = .word p .whole cw line :: rest → decode cw = .ok i → p.accepts i = true →
    step s = exec i (present p line { s with agenda := rest })) ∧
  (∀ (s : State) (nbits w : Nat) (i : Instr), decodeTableWord nbits w = some i →
    step (s.withFetchWord nbits w) = exec i (present (portOf i s) s.lineData s))

/-- The other turns: an issued word, a micro-step of a context, and no turn waiting (the last is the model's choice,
log 6: FG, then PROD, then CONS goes on, and with every context idle the state stays). -/
def Obligations.StepFollowsTheSchedule : Prop :=
  (∀ (s : State) (p : Port) (cw : Word) (line : List Byte) (rest : List Turn) (i : Instr),
    s.agenda = .word p .issue cw line :: rest → decode cw = .ok i → p.accepts i = true →
    step s = issue i (present p line { s with agenda := rest })) ∧
  (∀ (s : State) (c : Context) (rest : List Turn), s.agenda = .micro c :: rest →
    step s = microTurn c { s with agenda := rest }) ∧
  (∀ s : State, s.agenda = [] →
    (s.fg ≠ .idle → step s = fgTurn s) ∧
    (s.fg = .idle → s.prod ≠ .idle → step s = prodTurn s) ∧
    (s.fg = .idle → s.prod = .idle → s.cons ≠ .idle → step s = consTurn s) ∧
    (s.fg = .idle → s.prod = .idle → s.cons = .idle → step s = .next s))

/-! ## Reset and INIT (10_state.md R35, 41_uartdriver.md R141, 70_reset_and_hazards.md R260 to R264) -/

/-- What R35 fixes at power-on; the indices are in range and no slot is written. -/
def Obligations.PowerOnStateIsAsTheSpecFixesIt : Prop :=
  State.reset.inited = false ∧ State.reset.hal.configured = false ∧ State.reset.gie = false ∧
  State.reset.hal.rxSample = none ∧ State.reset.fg = .idle ∧ State.reset.irqPc = .idle ∧
  State.reset.hal.txLog = [] ∧ State.reset.hal.halLog = [] ∧
  State.reset.tx.inRange = true ∧ State.reset.rx.inRange = true ∧ State.reset.rb.inRange = true ∧
  State.reset.tx.storage = [] ∧ State.reset.rx.storage = [] ∧ State.reset.rb.storage = []

/-- R141: INIT completes when `inited == 0`, `gie == 0` and `fg.pc == IDLE`, with exactly these effects; `gie`, the
storages and everything else stay. -/
def Obligations.InitResetsTheDriver : Prop :=
  ∀ s : State, s.inited = false → s.gie = false → s.fg = .idle →
    exec .init s = .next
      { s with
        tx := { s.tx with head := 0, tail := 0 }
        rx := { s.rx with head := 0, tail := 0 }
        hal := { s.hal with
          configured := true, rxEnabled := true, rxIrqEnabled := true, rxSample := none, txArmed := false
          txRegEmpty := Config.drawTxReady s.draws
          halLog := s.hal.halLog ++ [.configureLine, .setTxInterruptEnabled false] }
        inited := true
        draws := s.draws + 1
        respLog := s.respLog ++ [(.fg, 0x0000#16)] }

/-- R264: INIT twice, or INIT with `gie == 1`, is refused. -/
def Obligations.InitTwiceOrWithInterruptsOnIsRefused : Prop :=
  (∀ s : State, s.inited = true → exec .init s = .refused .secondInit) ∧
  (∀ s : State, s.inited = false → s.gie = true → exec .init s = .refused .initWithInterruptsOn)

/-- R263: SEND_BYTE, SEND_LINE, READ_BYTE, RX_LEN and the handlers have no step before INIT, neither whole nor as a
HOST_CMD (R203). -/
def Obligations.DriverOperationsAreRefusedBeforeInit : Prop :=
  ∀ (s : State) (m : WordMode), s.inited = false →
    (∀ v, perform m (.sendByte v) s = .refused .beforeInit) ∧ (∀ h, perform m (.sendLine h) s = .refused .beforeInit) ∧
    perform m .readByte s = .refused .beforeInit ∧ perform m .rxLen s = .refused .beforeInit ∧
    perform m .irqRx s = .refused .beforeInit ∧ perform m .irqTx s = .refused .beforeInit

/-- R268, R201: a command to a context whose operation has not returned is refused, whole or as a HOST_CMD (R203). -/
def Obligations.BusyContextTakesNoCommand : Prop :=
  ∀ (s : State) (m : WordMode),
    (s.inited = true → s.fg ≠ .idle →
      (∀ v, perform m (.sendByte v) s = .refused .contextBusy) ∧
      (∀ h, perform m (.sendLine h) s = .refused .contextBusy) ∧
      perform m .readByte s = .refused .contextBusy ∧ perform m .rxLen s = .refused .contextBusy) ∧
    (s.inited = false → s.gie = false → s.fg ≠ .idle → perform m .init s = .refused .contextBusy) ∧
    (s.prod ≠ .idle → (∀ v, perform m (.rbPush v) s = .refused .contextBusy) ∧
      (s.rbPort = .prod → perform m .rbLen s = .refused .contextBusy)) ∧
    (s.cons ≠ .idle → perform m .rbPop s = .refused .contextBusy ∧
      (s.rbPort = .cons → perform m .rbLen s = .refused .contextBusy))

/-! ## RingBuffer (40_ringbuffer.md) -/

/-- R117: with no step of the other role inside, push, pop and len are functions of the contents. -/
def Obligations.WholeOperationsActOnTheContents : Prop :=
  ∀ (B : RingBuffer) (v : Byte), B.head < B.n → B.tail < B.n →
    (B.occ = B.n - 1 → pushWhole v B = (B, .full)) ∧
    (B.occ ≠ B.n - 1 → (pushWhole v B).2 = .ok ∧ (pushWhole v B).1.contents = B.contents ++ [v]) ∧
    (B.occ = 0 → popWhole B = (B, .empty)) ∧
    (B.occ ≠ 0 → ∃ b, (popWhole B).2 = .some b ∧ B.contents = b :: (popWhole B).1.contents) ∧
    (lenMicro (.ln2 B.head) B = .done B.occ)

/-- R115 (c): a successful push raises the occupancy by exactly 1, a successful pop lowers it by exactly 1, and the
occupancy is never N. -/
def Obligations.OccupancyMovesByOne : Prop :=
  ∀ (B : RingBuffer) (v : Byte), B.head < B.n → B.tail < B.n →
    ((pushWhole v B).2 = .ok → (pushWhole v B).1.occ = B.occ + 1) ∧
    (∀ b, (popWhole B).2 = .some b → (popWhole B).1.occ + 1 = B.occ) ∧ B.occ < B.n

/-- R111: RB_PUSH completes, in a full buffer with FULL and no other change, otherwise with the byte in slot `head`,
`head` advanced and OK. -/
def Obligations.RbPushStoresAndAdvancesTheHead : Prop :=
  ∀ (s : State) (v : Byte), s.prod = .idle → s.rb.inRange = true →
    exec (.rbPush v) s = .next
      (if advance s.rb.n s.rb.head = s.rb.tail then
        { s with respLog := s.respLog ++ [(.prod, 0x0100#16)] }
      else
        { s with
          rb := { s.rb with
            storage := s.rb.storage.write s.rb.head v
            head := advance s.rb.n s.rb.head
            pushed := s.rb.pushed ++ [v] }
          respLog := s.respLog ++ [(.prod, 0x0000#16)] })

/-- R112: RB_POP completes, on an empty buffer with EMPTY and no other change, otherwise with the byte of slot `tail`
and `tail` advanced; the slot is not cleared. -/
def Obligations.RbPopReturnsTheOldestByte : Prop :=
  ∀ s : State, s.cons = .idle → s.rb.inRange = true →
    exec .rbPop s = .next
      (if s.rb.head = s.rb.tail then
        { s with respLog := s.respLog ++ [(.cons, 0x0200#16)] }
      else
        { s with
          rb := { s.rb with
            tail := advance s.rb.n s.rb.tail
            popped := s.rb.popped ++ [s.rb.readSlot s.rb.tail] }
          respLog := s.respLog ++ [(.cons, 0x00#8 ++ s.rb.readSlot s.rb.tail)] })

/-- R113: RB_LEN completes at either port with `(head - tail) mod N` and writes nothing. -/
def Obligations.RbLenReturnsTheLength : Prop :=
  ∀ s : State, s.rb.inRange = true →
    (s.rbPort = .prod → s.prod = .idle →
      exec .rbLen s = .next { s with respLog := s.respLog ++ [(.prod, 0x00#8 ++ BitVec.ofNat 8 s.rb.occ)] }) ∧
    (s.rbPort = .cons → s.cons = .idle →
      exec .rbLen s = .next { s with respLog := s.respLog ++ [(.cons, 0x00#8 ++ BitVec.ofNat 8 s.rb.occ)] })

/-- R57 (and the micro-steps of R111): one turn each, PU3 stores the byte and leaves `head`, PU4 then writes `head` and
leaves the storage; so what a consumer sees between tail and head are the bytes pushed and not yet popped, in order. -/
def Obligations.PushMicroStepsStoreBeforePublishing : Prop :=
  (∀ (s : State) (v : Byte) (h t next : Nat), s.rb.inRange = true → h < s.rb.n → t < s.rb.n → next < s.rb.n →
    (s.prod = .push (.pu1 v) → prodTurn s = .next { s with prod := .push (.pu2 v s.rb.head) }) ∧
    (s.prod = .push (.pu2 v h) → advance s.rb.n h = s.rb.tail →
      prodTurn s = .next { s with prod := .idle, respLog := s.respLog ++ [(.prod, 0x0100#16)] }) ∧
    (s.prod = .push (.pu2 v h) → advance s.rb.n h ≠ s.rb.tail →
      prodTurn s = .next { s with prod := .push (.pu3 v h s.rb.tail (advance s.rb.n h)) }) ∧
    (s.prod = .push (.pu3 v h t next) →
      prodTurn s = .next
        { s with rb := { s.rb with storage := s.rb.storage.write h v }, prod := .push (.pu4 v h t next) }) ∧
    (s.prod = .push (.pu4 v h t next) →
      prodTurn s = .next
        { s with rb := { s.rb with head := next, pushed := s.rb.pushed ++ [v] }, prod := .idle
                 respLog := s.respLog ++ [(.prod, 0x0000#16)] })) ∧
  (∀ s : State, s.rbSound → s.rb.contents = s.rb.pushed.drop s.rb.popped.length)

/-- R112, R58: the micro-steps of the stand-alone pop, one turn each: PO3 reads, PO4 frees. -/
def Obligations.PopMicroStepsReadBeforeFreeing : Prop :=
  ∀ (s : State) (v : Byte) (h t : Nat), s.rb.inRange = true → h < s.rb.n → t < s.rb.n →
    (s.cons = .pop .po1 → consTurn s = .next { s with cons := .pop (.po2 s.rb.head) }) ∧
    (s.cons = .pop (.po2 h) → h = s.rb.tail →
      consTurn s = .next { s with cons := .idle, respLog := s.respLog ++ [(.cons, 0x0200#16)] }) ∧
    (s.cons = .pop (.po2 h) → h ≠ s.rb.tail →
      consTurn s = .next { s with cons := .pop (.po3 h s.rb.tail) }) ∧
    (s.cons = .pop (.po3 h t) → consTurn s = .next { s with cons := .pop (.po4 h t (s.rb.readSlot t)) }) ∧
    (s.cons = .pop (.po4 h t v) →
      consTurn s = .next
        { s with rb := { s.rb with tail := advance s.rb.n t, popped := s.rb.popped ++ [v] }, cons := .idle
                 respLog := s.respLog ++ [(.cons, 0x00#8 ++ v)] })

/-- R62 for RB_LEN: when the last micro-step is performed, a consumer's length is at most the occupancy and a
producer's is at least the occupancy, whatever the other role has done since LN1. -/
def Obligations.LengthIsConservativeForARoleHolder : Prop :=
  ∀ (s : State) (h : Nat), s.rbSound →
    (s.cons = .len (.ln2 h) → ∃ k ≤ s.rb.occ,
      consTurn s = .next { s with cons := .idle, respLog := s.respLog ++ [(.cons, 0x00#8 ++ BitVec.ofNat 8 k)] }) ∧
    (s.prod = .len (.ln2 h) → ∃ k, s.rb.occ ≤ k ∧ k < s.rb.n ∧
      prodTurn s = .next { s with prod := .idle, respLog := s.respLog ++ [(.prod, 0x00#8 ++ BitVec.ofNat 8 k)] })

/-! ## Foreground operations (41_uartdriver.md) -/

/-- R142: SEND_BYTE completes; Full leaves everything, the interrupt too; otherwise the byte is pushed on TX and the
interrupt is armed. -/
def Obligations.SendBytePushesAndArms : Prop :=
  ∀ (s : State) (v : Byte), s.inited = true → s.fg = .idle → s.tx.inRange = true →
    exec (.sendByte v) s = .next
      (if advance s.tx.n s.tx.head = s.tx.tail then
        { s with respLog := s.respLog ++ [(.fg, 0x0100#16)] }
      else
        { s with
          tx := { s.tx with
            storage := s.tx.storage.write s.tx.head v
            head := advance s.tx.n s.tx.head
            pushed := s.tx.pushed ++ [v] }
          hal := { s.hal with
            txArmed := true
            halLog := s.hal.halLog ++ [.setTxInterruptEnabled true] }
          respLog := s.respLog ++ [(.fg, 0x0000#16)] })

/-- R142, R143: the micro-steps of a SEND_BYTE in the foreground, by itself or inside a SEND_LINE, one turn each: PU1 to
PU4 on TX, then AR1 arms; by itself it ends after a Full at PU2 or after AR1 (how a SEND_LINE goes on from there is in
SendLineEnqueuesWhatFits). -/
def Obligations.SendByteMicroStepsArmLast : Prop :=
  ∀ (s : State) (v : Byte) (h t next : Nat), s.tx.inRange = true → h < s.tx.n → t < s.tx.n → next < s.tx.n →
    (∀ inside : SendPos → FgPos, inside = .sendByte ∨ (∃ stage rest, inside = fun p => .sendLine p stage rest) →
      (s.fg = inside (.push (.pu1 v)) → fgTurn s = .next { s with fg := inside (.push (.pu2 v s.tx.head)) }) ∧
      (s.fg = inside (.push (.pu2 v h)) → advance s.tx.n h ≠ s.tx.tail →
        fgTurn s = .next { s with fg := inside (.push (.pu3 v h s.tx.tail (advance s.tx.n h))) }) ∧
      (s.fg = inside (.push (.pu3 v h t next)) →
        fgTurn s = .next
          { s with tx := { s.tx with storage := s.tx.storage.write h v }
                   fg := inside (.push (.pu4 v h t next)) }) ∧
      (s.fg = inside (.push (.pu4 v h t next)) →
        fgTurn s = .next
          { s with tx := { s.tx with head := next, pushed := s.tx.pushed ++ [v] }, fg := inside .ar1 })) ∧
    (s.fg = .sendByte (.push (.pu2 v h)) → advance s.tx.n h = s.tx.tail →
      fgTurn s = .next { s with fg := .idle, respLog := s.respLog ++ [(.fg, 0x0100#16)] }) ∧
    (s.fg = .sendByte .ar1 →
      fgTurn s = .next
        { s with hal := { s.hal with txArmed := true, halLog := s.hal.halLog ++ [.setTxInterruptEnabled true] }
                 fg := .idle, respLog := s.respLog ++ [(.fg, 0x0000#16)] })

/-- R222: SEND_LINE with no data handle is answered INVALID_INPUT; nothing is enqueued and nothing else changes. -/
def Obligations.SendLineWithoutHandleEnqueuesNothing : Prop :=
  ∀ s : State, s.inited = true → s.fg = .idle →
    exec (.sendLine false) s = .next { s with respLog := s.respLog ++ [(.fg, 0x0300#16)] }

/-- R143: SEND_LINE with a handle and no handler taken during it completes with OK, enqueues the first
min(L + 2, N - 1 - occ) bytes of the line with CR, LF and drops the rest, arms once per byte enqueued, keeps every slot
it did not fill, and changes nothing else.  In its micro-steps a drop does not stop it: after an inner SEND_BYTE that armed
or found the buffer full it goes on with the next byte, then CR, then LF, then answers OK. -/
def Obligations.SendLineEnqueuesWhatFits : Prop :=
  (∀ s : State, s.inited = true → s.fg = .idle → s.tx.inRange = true →
    ∃ t : State, exec (.sendLine true) s = .next t ∧
      (let sent := (s.lineData ++ [0x0D#8, 0x0A#8]).take (s.tx.n - 1 - s.tx.occ)
       t.tx.contents = s.tx.contents ++ sent ∧
       t.tx.tail = s.tx.tail ∧ t.tx.head = (s.tx.head + sent.length) % s.tx.n ∧
       (∀ a, (∀ k < sent.length, a ≠ (s.tx.head + k) % s.tx.n) → t.tx.readSlot a = s.tx.readSlot a) ∧
       t = { s with
         tx := { s.tx with storage := t.tx.storage, head := t.tx.head, pushed := s.tx.pushed ++ sent }
         hal := { s.hal with
           txArmed := s.hal.txArmed || decide (sent ≠ [])
           halLog := s.hal.halLog ++ List.replicate sent.length (.setTxInterruptEnabled true) }
         respLog := s.respLog ++ [(.fg, 0x0000#16)] })) ∧
  (∀ (s : State) (b : Byte) (rest : List Byte), s.tx.inRange = true →
    (s.fg = .sl0 true (b :: rest) → fgTurn s = .next { s with fg := .sendLine (.push (.pu1 b)) .body rest }) ∧
    (s.fg = .sl0 true [] → fgTurn s = .next { s with fg := .sendLine (.push (.pu1 0x0D#8)) .cr [] })) ∧
  (∀ (s t : State) (p : SendPos) (v : Byte) (h : Nat) (stage : Stage) (rest : List Byte),
    s.tx.inRange = true → h < s.tx.n → s.fg = .sendLine p stage rest →
    ((p = .ar1 ∧ t = { s with hal := { s.hal with
        txArmed := true, halLog := s.hal.halLog ++ [.setTxInterruptEnabled true] } }) ∨
      (p = .push (.pu2 v h) ∧ advance s.tx.n h = s.tx.tail ∧ t = s)) →
    (∀ b r, stage = .body → rest = b :: r →
      fgTurn s = .next { t with fg := .sendLine (.push (.pu1 b)) .body r }) ∧
    (stage = .body → rest = [] → fgTurn s = .next { t with fg := .sendLine (.push (.pu1 0x0D#8)) .cr [] }) ∧
    (stage = .cr → fgTurn s = .next { t with fg := .sendLine (.push (.pu1 0x0A#8)) .lf [] }) ∧
    (stage = .lf → fgTurn s = .next { t with fg := .idle, respLog := s.respLog ++ [(.fg, 0x0000#16)] }))

/-- R144: READ_BYTE completes, on an empty RX with EMPTY and no other change, otherwise with the oldest byte and `RX.tail`
advanced; its micro-steps, one turn each, are those of R112 on RX: a byte that arrives after PO1 does not change the answer
PO2 gives from its snapshot `h`. -/
def Obligations.ReadByteReturnsTheOldestByte : Prop :=
  encode .readByte = 0b0001001100000000#16 ∧
  (∀ s : State, s.inited = true → s.fg = .idle → s.rx.inRange = true →
    exec .readByte s = .next
      (if s.rx.head = s.rx.tail then
        { s with respLog := s.respLog ++ [(.fg, 0x0200#16)] }
      else
        { s with
          rx := { s.rx with
            tail := advance s.rx.n s.rx.tail
            popped := s.rx.popped ++ [s.rx.readSlot s.rx.tail] }
          respLog := s.respLog ++ [(.fg, 0x00#8 ++ s.rx.readSlot s.rx.tail)] })) ∧
  (∀ (s : State) (v : Byte) (h t : Nat), s.rx.inRange = true → h < s.rx.n → t < s.rx.n →
    (s.fg = .readByte .po1 → fgTurn s = .next { s with fg := .readByte (.po2 s.rx.head) }) ∧
    (s.fg = .readByte (.po2 h) → h = s.rx.tail →
      fgTurn s = .next { s with fg := .idle, respLog := s.respLog ++ [(.fg, 0x0200#16)] }) ∧
    (s.fg = .readByte (.po2 h) → h ≠ s.rx.tail → fgTurn s = .next { s with fg := .readByte (.po3 h s.rx.tail) }) ∧
    (s.fg = .readByte (.po3 h t) → fgTurn s = .next { s with fg := .readByte (.po4 h t (s.rx.readSlot t)) }) ∧
    (s.fg = .readByte (.po4 h t v) →
      fgTurn s = .next
        { s with rx := { s.rx with tail := advance s.rx.n t, popped := s.rx.popped ++ [v] }, fg := .idle
                 respLog := s.respLog ++ [(.fg, 0x00#8 ++ v)] }))

/-- R145: RX_LEN completes with the occupancy of RX and writes nothing; its micro-steps LN1, LN2, one turn each. -/
def Obligations.RxLenReturnsTheOccupancy : Prop :=
  (∀ s : State, s.inited = true → s.fg = .idle → s.rx.inRange = true →
    exec .rxLen s = .next { s with respLog := s.respLog ++ [(.fg, 0x00#8 ++ BitVec.ofNat 8 s.rx.occ)] }) ∧
  (∀ (s : State) (h : Nat), s.rx.inRange = true → h < s.rx.n →
    (s.fg = .rxLen .ln1 → fgTurn s = .next { s with fg := .rxLen (.ln2 s.rx.head) }) ∧
    (s.fg = .rxLen (.ln2 h) →
      fgTurn s = .next
        { s with fg := .idle
                 respLog := s.respLog ++ [(.fg, 0x00#8 ++ BitVec.ofNat 8 (residue s.rx.n h s.rx.tail))] }))

/-- R145: if the occupancy of RX is k or more, the next k READ_BYTEs all return a byte, in order. -/
def Obligations.AsManyReadsAsTheLengthReturnBytes : Prop :=
  ∀ (s : State) (k : Nat), s.inited = true → s.fg = .idle → s.rx.inRange = true → k ≤ s.rx.occ →
    ∃ t : State, execMany .readByte k s = .next t ∧
      t.respLog = s.respLog ++ (s.rx.contents.take k).map (fun b => (Port.fg, (0x00#8 ++ b : Word))) ∧
      t.rx.contents = s.rx.contents.drop k ∧ t.rx.head = s.rx.head

/-- R60 (a), R280, R87: a whole operation is its issue followed by its own micro-steps, at most the number R280 gives,
and it ends with the context idle. -/
def Obligations.WholeOperationIsItsMicroSteps : Prop :=
  ∀ s t : State,
    (∀ v, exec (.sendByte v) s = .next t → ∃ s1, issue (.sendByte v) s = .next s1 ∧ t.fg = .idle ∧
      ∃ k, (k = 2 ∨ k = 5) ∧ microMany .fg k s1 = .next t) ∧
    (exec (.sendLine true) s = .next t → ∃ s1, issue (.sendLine true) s = .next s1 ∧ t.fg = .idle ∧
      ∃ k, 1 + 2 * (s.lineData.length + 2) ≤ k ∧ k ≤ 1 + 5 * (s.lineData.length + 2) ∧ microMany .fg k s1 = .next t) ∧
    (exec (.sendLine false) s = .next t → ∃ s1, issue (.sendLine false) s = .next s1 ∧ t.fg = .idle ∧
      microMany .fg 1 s1 = .next t) ∧
    (exec .readByte s = .next t → ∃ s1, issue .readByte s = .next s1 ∧ t.fg = .idle ∧
      ∃ k, (k = 2 ∨ k = 4) ∧ microMany .fg k s1 = .next t) ∧
    (exec .rxLen s = .next t → ∃ s1, issue .rxLen s = .next s1 ∧ t.fg = .idle ∧ microMany .fg 2 s1 = .next t) ∧
    (∀ v, exec (.rbPush v) s = .next t → ∃ s1, issue (.rbPush v) s = .next s1 ∧ t.prod = .idle ∧
      ∃ k, (k = 2 ∨ k = 4) ∧ microMany .prod k s1 = .next t) ∧
    (exec .rbPop s = .next t → ∃ s1, issue .rbPop s = .next s1 ∧ t.cons = .idle ∧
      ∃ k, (k = 2 ∨ k = 4) ∧ microMany .cons k s1 = .next t) ∧
    (exec .rbLen s = .next t → ∃ s1, issue .rbLen s = .next s1 ∧
      (s.rbPort = .prod → t.prod = .idle ∧ microMany .prod 2 s1 = .next t) ∧
      (s.rbPort = .cons → t.cons = .idle ∧ microMany .cons 2 s1 = .next t))

/-- R203, R281 (I8): no foreground micro-step waits on another agent. -/
def Obligations.ForegroundMicroStepIsAlwaysEnabled : Prop :=
  ∀ s : State, s.driverSound → s.fg ≠ .idle → ∃ t : State, fgTurn s = .next t

/-! ## Handlers (42_interrupt_handlers.md, 60_exceptions.md) -/

/-- R171: IRQ_RX, when it is taken, does exactly this, for all four flag combinations and a full or non-full RX. -/
def Obligations.IrqRxReadsAndPushesTheSample : Prop :=
  ∀ (s : State) (x : Sample), s.inited = true → s.gie = true → s.hal.rxIrqEnabled = true → s.hal.rxEnabled = true →
    s.hal.rxSample = some x → s.rx.inRange = true →
    exec .irqRx s = .next
      { s with
        rx := if x.fe = true ∨ advance s.rx.n s.rx.head = s.rx.tail then s.rx
          else { s.rx with
            storage := s.rx.storage.write s.rx.head x.data
            head := advance s.rx.n s.rx.head
            pushed := s.rx.pushed ++ [x.data] }
        hal := { s.hal with
          rxSample := none
          rxEnabled := true
          halLog := s.hal.halLog ++ [.queryFramingError, .queryOverrun, .readRxRegister]
            ++ (if x.ovr then [.rxDisable, .rxEnable] else []) }
        rxRead := s.rxRead ++ [(x, decide (advance s.rx.n s.rx.head ≠ s.rx.tail))] }

/-- R172: IRQ_TX, when it is taken, does exactly this: on an empty TX it masks and writes nothing; otherwise it writes
the oldest byte, and masks in the same firing when the buffer is then empty. -/
def Obligations.IrqTxWritesOneByteOrMasks : Prop :=
  ∀ s : State, s.inited = true → s.gie = true → s.hal.txArmed = true → s.hal.txRegEmpty = true → s.tx.inRange = true →
    (s.tx.head = s.tx.tail →
      exec .irqTx s = .next
        { s with hal := { s.hal with
          txArmed := false
          halLog := s.hal.halLog ++ [.setTxInterruptEnabled false] } }) ∧
    (s.tx.head ≠ s.tx.tail →
      exec .irqTx s = .next
        { s with
          tx := { s.tx with
            tail := advance s.tx.n s.tx.tail
            popped := s.tx.popped ++ [s.tx.readSlot s.tx.tail] }
          hal := { s.hal with
            txArmed := decide (advance s.tx.n s.tx.tail ≠ s.tx.head)
            txRegEmpty := false
            txLog := s.hal.txLog ++ [s.tx.readSlot s.tx.tail]
            halLog := s.hal.halLog ++ [.writeTxRegister (s.tx.readSlot s.tx.tail)]
              ++ (if advance s.tx.n s.tx.tail = s.tx.head then [.setTxInterruptEnabled false] else []) } })

/-- R229: a handler is taken only when its request is 1, `gie == 1` and `inited == 1`; otherwise it has no step. -/
def Obligations.HandlersAreTakenOnlyWhenEnabled : Prop :=
  (∀ s t : State, exec .irqRx s = .next t →
    s.inited = true ∧ s.gie = true ∧ s.hal.rxIrqEnabled = true ∧ s.hal.rxEnabled = true ∧ s.hal.rxSample ≠ none) ∧
  (∀ s t : State, exec .irqTx s = .next t →
    s.inited = true ∧ s.gie = true ∧ s.hal.txArmed = true ∧ s.hal.txRegEmpty = true) ∧
  (∀ s : State, s.inited = true → (s.gie = false ∨ s.hal.reqRx = false) → exec .irqRx s = .refused .handlerNotTaken) ∧
  (∀ s : State, s.inited = true → (s.gie = false ∨ s.hal.reqTx = false) → exec .irqTx s = .refused .handlerNotTaken)

/-- R233, R234, R173: a handler leaves the foreground's position and locals, `gie`, the other direction's buffer and its
half of the collaborator, and the stand-alone contexts untouched. -/
def Obligations.HandlersKeepTheForegroundPosition : Prop :=
  (∀ (i : Instr) (s t : State), i = .irqRx ∨ i = .irqTx → exec i s = .next t →
    t.fg = s.fg ∧ t.gie = s.gie ∧ t.irqPc = s.irqPc ∧ t.prod = s.prod ∧ t.cons = s.cons ∧ t.rb = s.rb ∧
    t.inited = s.inited ∧ t.lineData = s.lineData ∧ t.rbPort = s.rbPort ∧ t.respLog = s.respLog ∧ t.draws = s.draws ∧
    t.agenda = s.agenda ∧ t.hal.configured = s.hal.configured ∧ t.hal.rxIrqEnabled = s.hal.rxIrqEnabled ∧
    t.hal.rxArrived = s.hal.rxArrived) ∧
  (∀ s t : State, exec .irqRx s = .next t →
    t.tx = s.tx ∧ t.hal.txArmed = s.hal.txArmed ∧ t.hal.txRegEmpty = s.hal.txRegEmpty ∧ t.hal.txLog = s.hal.txLog) ∧
  (∀ s t : State, exec .irqTx s = .next t →
    t.rx = s.rx ∧ t.rxRead = s.rxRead ∧ t.hal.rxSample = s.hal.rxSample ∧ t.hal.rxEnabled = s.hal.rxEnabled)

/-- R230: every firing withdraws its own request. -/
def Obligations.EachFiringWithdrawsItsRequest : Prop :=
  (∀ s t : State, exec .irqRx s = .next t → t.hal.reqRx = false) ∧
  (∀ s t : State, exec .irqTx s = .next t → t.hal.reqTx = false)

/-- R231: with both requests pending the two orders reach the same state but for the order of `hal_log`. -/
def Obligations.HandlerOrdersReachTheSameState : Prop :=
  ∀ s : State, s.inited = true → s.gie = true → s.hal.reqRx = true → s.hal.reqTx = true →
    s.rx.inRange = true → s.tx.inRange = true →
    ∃ t u : State, continueWith (exec .irqRx s) (exec .irqTx) = .next t ∧
      continueWith (exec .irqTx s) (exec .irqRx) = .next u ∧
      { t with hal := { t.hal with halLog := [] } } = { u with hal := { u.hal with halLog := [] } } ∧
      t.hal.halLog.Perm u.hal.halLog

/-- R147: what each operation, and each foreground micro-step, does to the TX arming state. -/
def Obligations.ArmingStateMovesAsTheTableSays : Prop :=
  (∀ (i : Instr) (s t : State), exec i s = .next t →
    match i with
    | .sendByte _ => t.hal.txArmed = (s.hal.txArmed || decide (advance s.tx.n s.tx.head ≠ s.tx.tail))
    | .sendLine h => t.hal.txArmed = (s.hal.txArmed || (h && decide (advance s.tx.n s.tx.head ≠ s.tx.tail)))
    | .irqTx => t.hal.txArmed = decide (2 ≤ s.tx.occ)
    | .init => t.hal.txArmed = false
    | .setTxInterruptEnabled b => t.hal.txArmed = b
    | _ => t.hal.txArmed = s.hal.txArmed) ∧
  (∀ s t : State, fgTurn s = .next t → t.hal.txArmed = (s.hal.txArmed || s.fg.atAr1))

/-- R281 (I7): whatever the step, the transmit register is written only when it is ready, one byte at a time. -/
def Obligations.TransmitRegisterIsWrittenOnlyWhenReady : Prop :=
  ∀ s t : State, step s = .next t → t.hal.txLog ≠ s.hal.txLog →
    s.hal.txRegEmpty = true ∧ t.hal.txRegEmpty = false ∧ ∃ b, t.hal.txLog = s.hal.txLog ++ [b]

/-- R147, R172: from an armed driver with k bytes in TX, k rounds of ENV_TX_READY and IRQ_TX put exactly those bytes on
the wire, in order, and leave the interrupt masked. -/
def Obligations.DrainingSendsTheWholeBuffer : Prop :=
  ∀ s : State, s.inited = true → s.gie = true → s.hal.configured = true → s.hal.txRegEmpty = false →
    s.hal.txArmed = true → s.tx.inRange = true → s.tx.head ≠ s.tx.tail →
    ∃ t : State, drainRounds s.tx.occ s = .next t ∧ t.hal.txLog = s.hal.txLog ++ s.tx.contents ∧
      t.tx.head = s.tx.head ∧ t.tx.tail = s.tx.head ∧ t.hal.txArmed = false ∧ t.rx = s.rx ∧ t.fg = s.fg

/-- R281 (I9), R8: in every infinite run of the step relation that starts in a sound driver after INIT, keeps `gie == 1`
and is weakly fair to ENV_TX_READY and IRQ_TX, every byte whose push has returned Ok by some moment is on the wire at a
later one; and if the run is weakly fair to the foreground too, so is a byte whose SEND_BYTE is between PU4 and AR1.  That
no HAL word comes from outside is the model's premise (log 8), and that a byte not yet armed needs the foreground to go on
is its reading of I9 (log 18). -/
def Obligations.PushedBytesAreEventuallySent : Prop :=
  ∀ (σ : Nat → State) (τ : Nat → Turn), IsRun σ τ → (∀ k, (τ k).ofStepRelation = true) →
    (σ 0).driverSound → (σ 0).inited = true → (∀ k, (σ k).gie = true) →
    WeaklyFair .envTxReady σ τ → WeaklyFair .irqTx σ τ →
    (∀ n, (σ n).fg.atAr1 = false → ∃ m ≥ n, (σ n).tx.pushed <+: (σ m).hal.txLog) ∧
    (WeaklyFairForeground σ τ → ∀ n, ∃ m ≥ n, (σ n).tx.pushed <+: (σ m).hal.txLog)

/-! ## Collaborator primitives, environment and host (43_hal.md) -/

/-- R191: WRITE_TX_REGISTER, when the register is ready; while it is not ready the write is a fault (U14). -/
def Obligations.WriteTxRegisterLogsTheByte : Prop :=
  ∀ (s : State) (v : Byte),
    (s.hal.txRegEmpty = true →
      exec (.writeTxRegister v) s = .next
        { s with
          hal := { s.hal with
            txLog := s.hal.txLog ++ [v], txRegEmpty := false, halLog := s.hal.halLog ++ [.writeTxRegister v] }
          respLog := s.respLog ++ [(.hal, 0x0000#16)] }) ∧
    (s.hal.txRegEmpty = false → exec (.writeTxRegister v) s = .fault .txRegisterNotReady)

/-- R192: READ_RX_REGISTER with a sample waiting; R53: reading consumes the sample and withdraws the request. -/
def Obligations.ReadRxRegisterConsumesTheSample : Prop :=
  ∀ (s : State) (x : Sample), s.hal.rxSample = some x →
    exec .readRxRegister s = .next
      { s with
        hal := { s.hal with rxSample := none, halLog := s.hal.halLog ++ [.readRxRegister] }
        respLog := s.respLog ++ [(.hal, 0x00#8 ++ x.data)] }

/-- R193: SET_TX_INTERRUPT_ENABLED, for both values, touches `tx_armed` only. -/
def Obligations.SetTxInterruptEnabledWritesTheMask : Prop :=
  ∀ (s : State) (b : Bool),
    exec (.setTxInterruptEnabled b) s = .next
      { s with
        hal := { s.hal with txArmed := b, halLog := s.hal.halLog ++ [.setTxInterruptEnabled b] }
        respLog := s.respLog ++ [(.hal, 0x0000#16)] }

/-- R194, R195: the flag queries return the waiting sample's flags and change nothing. -/
def Obligations.FlagQueriesReturnTheSampleFlags : Prop :=
  ∀ (s : State) (x : Sample), s.hal.rxSample = some x →
    exec .queryFramingError s = .next
      { s with
        hal := { s.hal with halLog := s.hal.halLog ++ [.queryFramingError] }
        respLog := s.respLog ++ [(.hal, if x.fe then 0x0001#16 else 0x0000#16)] } ∧
    exec .queryOverrun s = .next
      { s with
        hal := { s.hal with halLog := s.hal.halLog ++ [.queryOverrun] }
        respLog := s.respLog ++ [(.hal, if x.ovr then 0x0001#16 else 0x0000#16)] }

/-- The model's choice (log 10): with no sample waiting, the reads of the receive register complete with a free value. -/
def Obligations.EmptyReceiveRegisterReadsAFreeValue : Prop :=
  ∀ s : State, s.hal.rxSample = none →
    (∃ b : Byte, exec .readRxRegister s = .next
      { s with
        hal := { s.hal with halLog := s.hal.halLog ++ [.readRxRegister] }
        draws := s.draws + 1
        respLog := s.respLog ++ [(.hal, 0x00#8 ++ b)] }) ∧
    (∃ w : Word, (w = 0x0000#16 ∨ w = 0x0001#16) ∧ exec .queryFramingError s = .next
      { s with
        hal := { s.hal with halLog := s.hal.halLog ++ [.queryFramingError] }
        draws := s.draws + 1
        respLog := s.respLog ++ [(.hal, w)] }) ∧
    (∃ w : Word, (w = 0x0000#16 ∨ w = 0x0001#16) ∧ exec .queryOverrun s = .next
      { s with
        hal := { s.hal with halLog := s.hal.halLog ++ [.queryOverrun] }
        draws := s.draws + 1
        respLog := s.respLog ++ [(.hal, w)] })

/-- R196, R197: RX_DISABLE turns the receive function off and drops the sample, RX_ENABLE turns it on. -/
def Obligations.ReceiverResetCycleHalves : Prop :=
  ∀ s : State,
    exec .rxDisable s = .next
      { s with
        hal := { s.hal with rxEnabled := false, rxSample := none, halLog := s.hal.halLog ++ [.rxDisable] }
        respLog := s.respLog ++ [(.hal, 0x0000#16)] } ∧
    exec .rxEnable s = .next
      { s with
        hal := { s.hal with rxEnabled := true, halLog := s.hal.halLog ++ [.rxEnable] }
        respLog := s.respLog ++ [(.hal, 0x0000#16)] }

/-- R198: CONFIGURE_LINE; the readiness of the transmit register is a draw. -/
def Obligations.ConfigureLineTurnsTheReceiverOn : Prop :=
  ∀ s : State,
    exec .configureLine s = .next
      { s with
        hal := { s.hal with
          configured := true, rxEnabled := true, rxIrqEnabled := true, rxSample := none
          txRegEmpty := Config.drawTxReady s.draws
          halLog := s.hal.halLog ++ [.configureLine] }
        draws := s.draws + 1
        respLog := s.respLog ++ [(.hal, 0x0000#16)] }

/-- R199: ENV_TX_READY is enabled when `configured == 1` and `tx_reg_empty == 0`; it makes the register ready and, with
the interrupt armed, raises the request. -/
def Obligations.EnvTxReadyMakesTheRegisterReady : Prop :=
  ∀ s : State,
    (s.hal.configured = true → s.hal.txRegEmpty = false →
      exec .envTxReady s = .next { s with hal := { s.hal with txRegEmpty := true } } ∧
      ∀ t, exec .envTxReady s = .next t → t.hal.reqTx = s.hal.txArmed) ∧
    ((s.hal.configured = false ∨ s.hal.txRegEmpty = true) → exec .envTxReady s = .refused .txReadyNotEnabled)

/-- R200: ENV_RX_ARRIVE is enabled when `configured == 1` and `rx_enabled == 1`, for every byte and every flag
combination; a waiting sample is replaced. -/
def Obligations.EnvRxArrivePutsTheSample : Prop :=
  ∀ (s : State) (f o : Bool) (d : Byte),
    (s.hal.configured = true → s.hal.rxEnabled = true →
      exec (.envRxArrive f o d) s = .next
        { s with hal := { s.hal with
          rxSample := some { data := d, fe := f, ovr := o }
          rxArrived := s.hal.rxArrived ++ [{ data := d, fe := f, ovr := o }] } } ∧
      ∀ t, exec (.envRxArrive f o d) s = .next t → t.hal.reqRx = s.hal.rxIrqEnabled) ∧
    ((s.hal.configured = false ∨ s.hal.rxEnabled = false) →
      exec (.envRxArrive f o d) s = .refused .rxArriveNotEnabled)

/-- R201 (b), R203: HOST_GIE is always enabled and writes `gie` only. -/
def Obligations.HostGieWritesTheGlobalEnable : Prop :=
  ∀ (s : State) (b : Bool), exec (.hostGie b) s = .next { s with gie := b }

/-! ## Rules about the whole machine -/

/-- R31, R173: `gie` changes only by a HOST_GIE word at the host's port. -/
def Obligations.OnlyHostGieChangesTheGlobalEnable : Prop :=
  ∀ s t : State, step s = .next t → t.gie ≠ s.gie →
    ∃ m cw line rest b, s.agenda = .word .host m cw line :: rest ∧ decode cw = .ok (.hostGie b) ∧ t.gie = b

/-- R22, R236: whatever a context does, it writes no index and no slot of another role. -/
def Obligations.EachIndexHasOneWriter : Prop :=
  (∀ s t : State, fgTurn s = .next t →
    t.tx.tail = s.tx.tail ∧ t.rx.head = s.rx.head ∧ t.rx.storage = s.rx.storage ∧ t.rb = s.rb) ∧
  (∀ s t : State, prodTurn s = .next t →
    t.rb.tail = s.rb.tail ∧ t.tx = s.tx ∧ t.rx = s.rx ∧ t.hal = s.hal ∧ t.fg = s.fg ∧ t.cons = s.cons) ∧
  (∀ s t : State, consTurn s = .next t →
    t.rb.head = s.rb.head ∧ t.rb.storage = s.rb.storage ∧ t.tx = s.tx ∧ t.rx = s.rx ∧ t.hal = s.hal ∧
    t.fg = s.fg ∧ t.prod = s.prod) ∧
  (∀ s t : State, exec .irqRx s = .next t → t.rx.tail = s.rx.tail ∧ t.tx = s.tx ∧ t.hal.txArmed = s.hal.txArmed ∧
    t.hal.txLog = s.hal.txLog ∧ t.hal.txRegEmpty = s.hal.txRegEmpty) ∧
  (∀ s t : State, exec .irqTx s = .next t → t.tx.head = s.tx.head ∧ t.tx.storage = s.tx.storage ∧ t.rx = s.rx ∧
    t.hal.rxSample = s.hal.rxSample ∧ t.hal.rxEnabled = s.hal.rxEnabled)

/-- The frame in memory: an operation stores at most into slot `head` of the one buffer it pushes to; every other slot
of every buffer reads as before.  (SEND_LINE, which pushes many bytes, is in SendLineEnqueuesWhatFits; here its RX and RB.) -/
def Obligations.OperationsStoreOnlyAtTheHead : Prop :=
  ∀ (i : Instr) (s t : State) (a : Nat), exec i s = .next t →
    ((∀ v, i ≠ .rbPush v) ∨ a ≠ s.rb.head → t.rb.readSlot a = s.rb.readSlot a) ∧
    ((∀ v, i ≠ .sendByte v) ∧ (∀ h, i ≠ .sendLine h) ∨ (∃ v, i = .sendByte v) ∧ a ≠ s.tx.head →
      t.tx.readSlot a = s.tx.readSlot a) ∧
    (i ≠ .irqRx ∨ a ≠ s.rx.head → t.rx.readSlot a = s.rx.readSlot a)

/-- R23: no step changes a capacity. -/
def Obligations.CapacitiesNeverChange : Prop :=
  ∀ s t : State, step s = .next t → t.tx.cap = s.tx.cap ∧ t.rx.cap = s.rx.cap ∧ t.rb.cap = s.rb.cap

/-- R204, R202: what has been observed is never taken back: the response words, `tx_log` and `hal_log` only grow. -/
def Obligations.ObservationsOnlyGrow : Prop :=
  ∀ s t : State, step s = .next t →
    s.respLog <+: t.respLog ∧ s.hal.txLog <+: t.hal.txLog ∧ s.hal.halLog <+: t.hal.halLog

/-- R9 (ghost), R32: no step's effect on the state proper depends on a ghost. -/
def Obligations.GhostsInfluenceNothing : Prop :=
  ∀ s : State, eraseOutcome (step s) = eraseOutcome (step s.eraseGhosts)

/-- Every storage stays in canonical form, in every state, reachable or not. -/
def Obligations.StoragesStayCanonical : Prop :=
  ∀ s t : State, s.tx.storage.wf → s.rx.storage.wf → s.rb.storage.wf → step s = .next t →
    t.tx.storage.wf ∧ t.rx.storage.wf ∧ t.rb.storage.wf

/-- R118, R63, R281 (I1 to I3) for the stand-alone RingBuffer: under every interleaving of producer and consumer
micro-steps, `pushed = popped ++ contents`, with the conditions of R57, R58 and R62 on the operations in progress. -/
def Obligations.StandAloneBufferStaysFifo : Prop :=
  ∀ s t : State, s.rbSound → step s = .next t → t.rbSound

/-- R281 (I1 to I6) for the driver: under every interleaving of the foreground, the handlers, the environment and the
host, both buffers are FIFO, `tx_log = popped(TX)`, `pushed(RX)` is exactly the good samples read that met room, the samples
read are a subsequence of those that arrived, and no byte is stranded with the interrupt masked. -/
def Obligations.DriverStaysSound : Prop :=
  ∀ s t : State, s.driverSound → step s = .next t → t.driverSound

/-- The power-on state is sound.  This rests on the model's choices as well as on R35: the TX and RX indices in range before
INIT (log 2; R37 speaks only of after INIT), no slot listed (log 3), the stand-alone buffer empty and its contexts idle
(log 5), the ghosts and the schedule empty (logs 14 and 24). -/
def Obligations.PowerOnStateIsSound : Prop := State.reset.rbSound ∧ State.reset.driverSound

/-- R37, R51, R235: in a sound state no step is a fault; no index is ever out of range. -/
def Obligations.SoundStatesNeverFault : Prop :=
  ∀ (s : State) (f : Fault), s.rbSound → s.driverSound → step s ≠ .fault f
end

