-- ==== Sys2Proof/Laws/Memory.lean ====
section
/-! SUPPORT. The laws of a storage: read after write, a write elsewhere, the canonical form is kept, and in
canonical form equal reads mean equal data. -/

namespace Sys2Proof.Machine

theorem Memory.read_write_same (m : Memory) (a : Nat) (v : Byte) : (m.write a v).read a = some v := by
  induction m with
  | nil => simp [Memory.write, Memory.read]
  | cons x rest ih =>
    obtain ⟨b, w⟩ := x
    simp only [Memory.write]
    split
    · simp [Memory.read]
    · split
      · simp [Memory.read]
      · rename_i h; simp [Memory.read, h, ih]

theorem Memory.read_write_other (m : Memory) {a b : Nat} (v : Byte) (h : b ≠ a) :
    (m.write a v).read b = m.read b := by
  induction m with
  | nil => simp [Memory.write, Memory.read, h]
  | cons x rest ih =>
    obtain ⟨c, w⟩ := x
    simp only [Memory.write]
    split
    · simp [Memory.read, h]
    · split
      · rename_i h1; subst h1; simp [Memory.read, h]
      · simp [Memory.read, ih]

theorem Memory.mem_write {m : Memory} {a : Nat} {v : Byte} {x : Host.Cell} (h : x ∈ m.write a v) :
    x = (a, v) ∨ x ∈ m := by
  induction m with
  | nil => simpa [Memory.write] using h
  | cons y rest ih =>
    obtain ⟨c, w⟩ := y
    simp only [Memory.write] at h
    split at h
    · simpa using h
    · split at h
      · rcases List.mem_cons.mp h with h | h
        · exact .inl h
        · exact .inr (List.mem_cons_of_mem _ h)
      · rcases List.mem_cons.mp h with h | h
        · exact .inr (h ▸ List.mem_cons_self)
        · exact (ih h).imp id (List.mem_cons_of_mem _)

/-- Every write keeps the canonical form. -/
theorem Memory.wf_write {m : Memory} (h : m.wf) (a : Nat) (v : Byte) : (m.write a v).wf := by
  induction m with
  | nil => simp [Memory.write, Memory.wf]
  | cons y rest ih =>
    obtain ⟨c, w⟩ := y
    have hrest : ∀ x ∈ rest, c < x.1 := (List.pairwise_cons.mp h).1
    have htail : Memory.wf rest := (List.pairwise_cons.mp h).2
    simp only [Memory.write]
    split
    · rename_i hlt
      refine List.pairwise_cons.mpr ⟨?_, h⟩
      intro x hx
      rcases List.mem_cons.mp hx with rfl | hx
      · exact hlt
      · exact Nat.lt_trans hlt (hrest x hx)
    · split
      · rename_i heq; subst heq
        exact List.pairwise_cons.mpr ⟨hrest, htail⟩
      · rename_i hlt hne
        refine List.pairwise_cons.mpr ⟨?_, ih htail⟩
        intro x hx
        rcases Memory.mem_write hx with rfl | hx
        · show c < a
          omega
        · exact hrest x hx

/-- A write into slot `a < n` keeps every listed slot below `n`. -/
theorem Memory.bound_write {m : Memory} {n a : Nat} {v : Byte} (h : ∀ x ∈ m, x.1 < n) (ha : a < n) :
    ∀ x ∈ m.write a v, x.1 < n := fun x hx => by
  rcases Memory.mem_write hx with rfl | hx
  · exact ha
  · exact h x hx

theorem Memory.wf_nil : Memory.wf [] := List.Pairwise.nil

theorem Memory.read_eq_none_of_lt {m : Memory} {a : Nat} (h : ∀ x ∈ m, a < x.1) : m.read a = none := by
  induction m with
  | nil => rfl
  | cons y rest ih =>
    obtain ⟨c, w⟩ := y
    have hc : a < c := h (c, w) List.mem_cons_self
    simp [Memory.read, Nat.ne_of_lt hc, ih (fun x hx => h x (List.mem_cons_of_mem _ hx))]

/-- In canonical form, two storages that read alike at every slot are the same data. -/
theorem Memory.ext_of_wf {m m' : Memory} (h : m.wf) (h' : m'.wf) (heq : ∀ a, m.read a = m'.read a) :
    m = m' := by
  induction m generalizing m' with
  | nil =>
    cases m' with
    | nil => rfl
    | cons y rest =>
      obtain ⟨c, w⟩ := y
      have := heq c
      simp [Memory.read] at this
  | cons x rest ih =>
    obtain ⟨b, v⟩ := x
    have hb : ∀ x ∈ rest, b < x.1 := (List.pairwise_cons.mp h).1
    cases m' with
    | nil => have := heq b; simp [Memory.read] at this
    | cons y rest' =>
      obtain ⟨c, w⟩ := y
      have hc : ∀ x ∈ rest', c < x.1 := (List.pairwise_cons.mp h').1
      have hbc : b = c := by
        rcases Nat.lt_trichotomy b c with hlt | heq' | hlt
        · have hn : Memory.read ((c, w) :: rest') b = none := Memory.read_eq_none_of_lt (by
            intro x hx
            rcases List.mem_cons.mp hx with rfl | hx
            · exact hlt
            · exact Nat.lt_trans hlt (hc x hx))
          have := heq b
          rw [hn] at this
          simp [Memory.read] at this
        · exact heq'
        · have hn : Memory.read ((b, v) :: rest) c = none := Memory.read_eq_none_of_lt (by
            intro x hx
            rcases List.mem_cons.mp hx with rfl | hx
            · exact hlt
            · exact Nat.lt_trans hlt (hb x hx))
          have := heq c
          rw [hn] at this
          simp [Memory.read] at this
      subst hbc
      have hv : v = w := by
        have := heq b
        simpa [Memory.read] using this
      subst hv
      congr 1
      refine ih (List.pairwise_cons.mp h).2 (List.pairwise_cons.mp h').2 fun a => ?_
      by_cases ha : a = b
      · subst ha
        rw [Memory.read_eq_none_of_lt hb, Memory.read_eq_none_of_lt hc]
      · have := heq a
        simpa [Memory.read, ha] using this

/-! ## Slots of a buffer -/

theorem RingBuffer.readSlot_writeSlot_same (B : RingBuffer) (i : Nat) (v : Byte) :
    (B.writeSlot i v).readSlot i = v := by
  simp [RingBuffer.readSlot, RingBuffer.writeSlot, Memory.read_write_same]

theorem RingBuffer.readSlot_writeSlot_other (B : RingBuffer) {i j : Nat} (v : Byte) (h : j ≠ i) :
    (B.writeSlot i v).readSlot j = B.readSlot j := by
  simp [RingBuffer.readSlot, RingBuffer.writeSlot, Memory.read_write_other _ v h]

end Sys2Proof.Machine
end

