-- ==== Sys2Proof/Laws/Index.lean ====
section
/-! SUPPORT. Index arithmetic mod N (R115): advance and length as case distinctions, and how the occupancy
and the contents of a buffer move under a push, a pop and a store into the free slot (R36, R117). -/

namespace Sys2Proof.Machine

theorem RingBuffer.two_le_n (B : RingBuffer) : 2 ≤ B.n := by simp [RingBuffer.n]

theorem RingBuffer.n_le (B : RingBuffer) : B.n ≤ 256 := by
  have := B.cap.isLt
  simp only [RingBuffer.n]
  omega

theorem advance_lt {n : Nat} (x : Nat) (h : 0 < n) : advance n x < n := Nat.mod_lt _ h

/-- R115 (a). -/
theorem advance_eq {n x : Nat} (h : x < n) : advance n x = if x + 1 = n then 0 else x + 1 := by
  unfold advance
  split
  · rename_i h1; simp [h1]
  · exact Nat.mod_eq_of_lt (by omega)

/-- Advancing is one to one on [0, N). -/
theorem advance_inj {n x y : Nat} (hx : x < n) (hy : y < n) (h : advance n x = advance n y) : x = y := by
  rw [advance_eq hx, advance_eq hy] at h
  split_ifs at h <;> omega

/-- R113: for h >= t the residue is h - t, for h < t it is h - t + N. -/
theorem residue_eq {n h t : Nat} (hh : h < n) (ht : t < n) :
    residue n h t = if t ≤ h then h - t else h + n - t := by
  unfold residue
  split
  · rename_i hle
    rw [Int.emod_eq_of_lt (by omega) (by omega)]
    omega
  · rename_i hle
    have h1 : ((h : Int) - (t : Int)) % (n : Int) = (h : Int) - t + n := by
      rw [← Int.add_emod_right, Int.emod_eq_of_lt (by omega) (by omega)]
    rw [h1]
    omega

theorem residue_lt {n h t : Nat} (hh : h < n) (ht : t < n) : residue n h t < n := by
  rw [residue_eq hh ht]
  split <;> omega

theorem residue_eq_zero {n h t : Nat} (hh : h < n) (ht : t < n) : residue n h t = 0 ↔ h = t := by
  rw [residue_eq hh ht]
  split <;> omega

/-- A push that is not full raises the occupancy by one (R115 c). -/
theorem residue_advance_head {n h t : Nat} (hh : h < n) (ht : t < n) (hne : advance n h ≠ t) :
    residue n (advance n h) t = residue n h t + 1 := by
  rw [residue_eq (advance_lt _ (by omega)) ht, residue_eq hh ht]
  rw [advance_eq hh] at hne ⊢
  split_ifs at hne ⊢ <;> omega

/-- A pop of a buffer that is not empty lowers the occupancy by one (R115 c). -/
theorem residue_advance_tail {n h t : Nat} (hh : h < n) (ht : t < n) (hne : h ≠ t) :
    residue n h (advance n t) + 1 = residue n h t := by
  rw [residue_eq hh (advance_lt _ (by omega)), residue_eq hh ht, advance_eq ht]
  split <;> split <;> split <;> omega

/-- A buffer is full exactly when its occupancy is N - 1 (R21). -/
theorem residue_full {n h t : Nat} (hn : 2 ≤ n) (hh : h < n) (ht : t < n) :
    advance n h = t ↔ residue n h t = n - 1 := by
  rw [residue_eq hh ht, advance_eq hh]
  split <;> split <;> omega

/-- The `k`-th byte of the contents stands in slot `(tail + k) mod N`, which is `head` only past the end. -/
theorem slot_ne_head {n h t k : Nat} (hh : h < n) (ht : t < n) (hk : k < residue n h t) :
    (t + k) % n ≠ h := by
  rw [residue_eq hh ht] at hk
  by_cases hlt : t + k < n
  · rw [Nat.mod_eq_of_lt hlt]
    split at hk <;> omega
  · have : (t + k) % n = t + k - n := by
      rw [Nat.mod_eq_sub_mod (by omega), Nat.mod_eq_of_lt]
      split at hk <;> omega
    rw [this]
    split at hk <;> omega

theorem tail_plus_residue {n h t : Nat} (hh : h < n) (ht : t < n) : (t + residue n h t) % n = h := by
  rw [residue_eq hh ht]
  split
  · rw [show t + (h - t) = h by omega, Nat.mod_eq_of_lt hh]
  · rw [show t + (h + n - t) = h + n by omega, Nat.add_mod_right, Nat.mod_eq_of_lt hh]

theorem advance_add {n t k : Nat} : (advance n t + k) % n = (t + (k + 1)) % n := by
  unfold advance
  rw [Nat.mod_add_mod]
  congr 1
  omega

/-! ## Contents -/

theorem RingBuffer.contents_length (B : RingBuffer) : B.contents.length = B.occ := by
  simp [RingBuffer.contents]

/-- The contents depend on the readings of the cyclic range only. -/
theorem RingBuffer.contents_congr {B B' : RingBuffer} (hn : B'.n = B.n) (hh : B'.head = B.head)
    (ht : B'.tail = B.tail) (hr : ∀ k < B.occ, B'.readSlot ((B.tail + k) % B.n) = B.readSlot ((B.tail + k) % B.n)) :
    B'.contents = B.contents := by
  have ho : B'.occ = B.occ := by simp [RingBuffer.occ, hn, hh, ht]
  unfold RingBuffer.contents
  rw [ho, hn, ht]
  exact List.map_congr_left fun k hk => hr k (List.mem_range.mp hk)

/-- PU3 stores into the free slot: the contents stay (R57). -/
theorem RingBuffer.contents_writeSlot_head (B : RingBuffer) (v : Byte) (hh : B.head < B.n) (ht : B.tail < B.n) :
    (B.writeSlot B.head v).contents = B.contents :=
  RingBuffer.contents_congr rfl rfl rfl fun _ hk =>
    B.readSlot_writeSlot_other v (slot_ne_head hh ht hk)

/-- PU4 publishes the byte in slot `head`: the contents gain it at the end (R117). -/
theorem RingBuffer.contents_publish {B B' : RingBuffer} (hh : B.head < B.n) (ht : B.tail < B.n)
    (hne : advance B.n B.head ≠ B.tail) (hn : B'.n = B.n) (hh' : B'.head = advance B.n B.head)
    (ht' : B'.tail = B.tail) (hr : ∀ i, B'.readSlot i = B.readSlot i) :
    B'.contents = B.contents ++ [B.readSlot B.head] := by
  have ho : B'.occ = B.occ + 1 := by
    simp only [RingBuffer.occ, hn, hh', ht']
    exact residue_advance_head hh ht hne
  unfold RingBuffer.contents
  rw [ho, List.range_succ, List.map_append, hn, ht']
  congr 1
  · exact List.map_congr_left fun k _ => hr _
  · simp [hr, RingBuffer.occ, tail_plus_residue hh ht]

/-- PO4 frees slot `tail`: the contents lose their first byte (R117). -/
theorem RingBuffer.contents_release {B B' : RingBuffer} (hh : B.head < B.n) (ht : B.tail < B.n)
    (hne : B.head ≠ B.tail) (hn : B'.n = B.n) (hh' : B'.head = B.head)
    (ht' : B'.tail = advance B.n B.tail) (hr : ∀ i, B'.readSlot i = B.readSlot i) :
    B.contents = B.readSlot B.tail :: B'.contents := by
  have ho : B'.occ + 1 = B.occ := by
    simp only [RingBuffer.occ, hn, hh', ht']
    exact residue_advance_tail hh ht hne
  unfold RingBuffer.contents
  rw [← ho, List.range_succ_eq_map, List.map_cons, List.map_map, hn, ht']
  congr 1
  · simp [Nat.mod_eq_of_lt ht]
  · refine List.map_congr_left fun k _ => ?_
    simp only [Function.comp_apply, Nat.succ_eq_add_one]
    rw [hr, advance_add]

theorem RingBuffer.contents_emptied (B : RingBuffer) (h : B.head = B.tail) (ht : B.tail < B.n) :
    B.contents = [] := by
  have : B.occ = 0 := by
    unfold RingBuffer.occ
    exact (residue_eq_zero (h ▸ ht) ht).mpr h
  simp [RingBuffer.contents, this]

end Sys2Proof.Machine
end

