-- ==== Sys2Proof/Laws/State.lean ====
section
/-! SUPPORT. One lemma per field of State per named update, true by rfl, and the same for the collaborator's
primitives, so that no later proof unfolds a record update. -/

namespace Sys2Proof.Machine

section updates
variable (s : State)

@[simp] theorem State.withTx_tx (B : RingBuffer) : (s.withTx B).tx = B := rfl
@[simp] theorem State.withTx_rx (B : RingBuffer) : (s.withTx B).rx = s.rx := rfl
@[simp] theorem State.withTx_rb (B : RingBuffer) : (s.withTx B).rb = s.rb := rfl
@[simp] theorem State.withTx_fg (B : RingBuffer) : (s.withTx B).fg = s.fg := rfl
@[simp] theorem State.withTx_irqPc (B : RingBuffer) : (s.withTx B).irqPc = s.irqPc := rfl
@[simp] theorem State.withTx_prod (B : RingBuffer) : (s.withTx B).prod = s.prod := rfl
@[simp] theorem State.withTx_cons (B : RingBuffer) : (s.withTx B).cons = s.cons := rfl
@[simp] theorem State.withTx_hal (B : RingBuffer) : (s.withTx B).hal = s.hal := rfl
@[simp] theorem State.withTx_gie (B : RingBuffer) : (s.withTx B).gie = s.gie := rfl
@[simp] theorem State.withTx_inited (B : RingBuffer) : (s.withTx B).inited = s.inited := rfl
@[simp] theorem State.withTx_lineData (B : RingBuffer) : (s.withTx B).lineData = s.lineData := rfl
@[simp] theorem State.withTx_rbPort (B : RingBuffer) : (s.withTx B).rbPort = s.rbPort := rfl
@[simp] theorem State.withTx_respLog (B : RingBuffer) : (s.withTx B).respLog = s.respLog := rfl
@[simp] theorem State.withTx_rxRead (B : RingBuffer) : (s.withTx B).rxRead = s.rxRead := rfl
@[simp] theorem State.withTx_draws (B : RingBuffer) : (s.withTx B).draws = s.draws := rfl
@[simp] theorem State.withTx_agenda (B : RingBuffer) : (s.withTx B).agenda = s.agenda := rfl

@[simp] theorem State.withRx_tx (B : RingBuffer) : (s.withRx B).tx = s.tx := rfl
@[simp] theorem State.withRx_rx (B : RingBuffer) : (s.withRx B).rx = B := rfl
@[simp] theorem State.withRx_rb (B : RingBuffer) : (s.withRx B).rb = s.rb := rfl
@[simp] theorem State.withRx_fg (B : RingBuffer) : (s.withRx B).fg = s.fg := rfl
@[simp] theorem State.withRx_irqPc (B : RingBuffer) : (s.withRx B).irqPc = s.irqPc := rfl
@[simp] theorem State.withRx_prod (B : RingBuffer) : (s.withRx B).prod = s.prod := rfl
@[simp] theorem State.withRx_cons (B : RingBuffer) : (s.withRx B).cons = s.cons := rfl
@[simp] theorem State.withRx_hal (B : RingBuffer) : (s.withRx B).hal = s.hal := rfl
@[simp] theorem State.withRx_gie (B : RingBuffer) : (s.withRx B).gie = s.gie := rfl
@[simp] theorem State.withRx_inited (B : RingBuffer) : (s.withRx B).inited = s.inited := rfl
@[simp] theorem State.withRx_lineData (B : RingBuffer) : (s.withRx B).lineData = s.lineData := rfl
@[simp] theorem State.withRx_rbPort (B : RingBuffer) : (s.withRx B).rbPort = s.rbPort := rfl
@[simp] theorem State.withRx_respLog (B : RingBuffer) : (s.withRx B).respLog = s.respLog := rfl
@[simp] theorem State.withRx_rxRead (B : RingBuffer) : (s.withRx B).rxRead = s.rxRead := rfl
@[simp] theorem State.withRx_draws (B : RingBuffer) : (s.withRx B).draws = s.draws := rfl
@[simp] theorem State.withRx_agenda (B : RingBuffer) : (s.withRx B).agenda = s.agenda := rfl

@[simp] theorem State.withRb_tx (B : RingBuffer) : (s.withRb B).tx = s.tx := rfl
@[simp] theorem State.withRb_rx (B : RingBuffer) : (s.withRb B).rx = s.rx := rfl
@[simp] theorem State.withRb_rb (B : RingBuffer) : (s.withRb B).rb = B := rfl
@[simp] theorem State.withRb_fg (B : RingBuffer) : (s.withRb B).fg = s.fg := rfl
@[simp] theorem State.withRb_irqPc (B : RingBuffer) : (s.withRb B).irqPc = s.irqPc := rfl
@[simp] theorem State.withRb_prod (B : RingBuffer) : (s.withRb B).prod = s.prod := rfl
@[simp] theorem State.withRb_cons (B : RingBuffer) : (s.withRb B).cons = s.cons := rfl
@[simp] theorem State.withRb_hal (B : RingBuffer) : (s.withRb B).hal = s.hal := rfl
@[simp] theorem State.withRb_gie (B : RingBuffer) : (s.withRb B).gie = s.gie := rfl
@[simp] theorem State.withRb_inited (B : RingBuffer) : (s.withRb B).inited = s.inited := rfl
@[simp] theorem State.withRb_lineData (B : RingBuffer) : (s.withRb B).lineData = s.lineData := rfl
@[simp] theorem State.withRb_rbPort (B : RingBuffer) : (s.withRb B).rbPort = s.rbPort := rfl
@[simp] theorem State.withRb_respLog (B : RingBuffer) : (s.withRb B).respLog = s.respLog := rfl
@[simp] theorem State.withRb_rxRead (B : RingBuffer) : (s.withRb B).rxRead = s.rxRead := rfl
@[simp] theorem State.withRb_draws (B : RingBuffer) : (s.withRb B).draws = s.draws := rfl
@[simp] theorem State.withRb_agenda (B : RingBuffer) : (s.withRb B).agenda = s.agenda := rfl

@[simp] theorem State.withFg_tx (p : FgPos) : (s.withFg p).tx = s.tx := rfl
@[simp] theorem State.withFg_rx (p : FgPos) : (s.withFg p).rx = s.rx := rfl
@[simp] theorem State.withFg_rb (p : FgPos) : (s.withFg p).rb = s.rb := rfl
@[simp] theorem State.withFg_fg (p : FgPos) : (s.withFg p).fg = p := rfl
@[simp] theorem State.withFg_irqPc (p : FgPos) : (s.withFg p).irqPc = s.irqPc := rfl
@[simp] theorem State.withFg_prod (p : FgPos) : (s.withFg p).prod = s.prod := rfl
@[simp] theorem State.withFg_cons (p : FgPos) : (s.withFg p).cons = s.cons := rfl
@[simp] theorem State.withFg_hal (p : FgPos) : (s.withFg p).hal = s.hal := rfl
@[simp] theorem State.withFg_gie (p : FgPos) : (s.withFg p).gie = s.gie := rfl
@[simp] theorem State.withFg_inited (p : FgPos) : (s.withFg p).inited = s.inited := rfl
@[simp] theorem State.withFg_lineData (p : FgPos) : (s.withFg p).lineData = s.lineData := rfl
@[simp] theorem State.withFg_rbPort (p : FgPos) : (s.withFg p).rbPort = s.rbPort := rfl
@[simp] theorem State.withFg_respLog (p : FgPos) : (s.withFg p).respLog = s.respLog := rfl
@[simp] theorem State.withFg_rxRead (p : FgPos) : (s.withFg p).rxRead = s.rxRead := rfl
@[simp] theorem State.withFg_draws (p : FgPos) : (s.withFg p).draws = s.draws := rfl
@[simp] theorem State.withFg_agenda (p : FgPos) : (s.withFg p).agenda = s.agenda := rfl

@[simp] theorem State.withProd_tx (p : ProdPos) : (s.withProd p).tx = s.tx := rfl
@[simp] theorem State.withProd_rx (p : ProdPos) : (s.withProd p).rx = s.rx := rfl
@[simp] theorem State.withProd_rb (p : ProdPos) : (s.withProd p).rb = s.rb := rfl
@[simp] theorem State.withProd_fg (p : ProdPos) : (s.withProd p).fg = s.fg := rfl
@[simp] theorem State.withProd_irqPc (p : ProdPos) : (s.withProd p).irqPc = s.irqPc := rfl
@[simp] theorem State.withProd_prod (p : ProdPos) : (s.withProd p).prod = p := rfl
@[simp] theorem State.withProd_cons (p : ProdPos) : (s.withProd p).cons = s.cons := rfl
@[simp] theorem State.withProd_hal (p : ProdPos) : (s.withProd p).hal = s.hal := rfl
@[simp] theorem State.withProd_gie (p : ProdPos) : (s.withProd p).gie = s.gie := rfl
@[simp] theorem State.withProd_inited (p : ProdPos) : (s.withProd p).inited = s.inited := rfl
@[simp] theorem State.withProd_lineData (p : ProdPos) : (s.withProd p).lineData = s.lineData := rfl
@[simp] theorem State.withProd_rbPort (p : ProdPos) : (s.withProd p).rbPort = s.rbPort := rfl
@[simp] theorem State.withProd_respLog (p : ProdPos) : (s.withProd p).respLog = s.respLog := rfl
@[simp] theorem State.withProd_rxRead (p : ProdPos) : (s.withProd p).rxRead = s.rxRead := rfl
@[simp] theorem State.withProd_draws (p : ProdPos) : (s.withProd p).draws = s.draws := rfl
@[simp] theorem State.withProd_agenda (p : ProdPos) : (s.withProd p).agenda = s.agenda := rfl

@[simp] theorem State.withCons_tx (p : ConsPos) : (s.withCons p).tx = s.tx := rfl
@[simp] theorem State.withCons_rx (p : ConsPos) : (s.withCons p).rx = s.rx := rfl
@[simp] theorem State.withCons_rb (p : ConsPos) : (s.withCons p).rb = s.rb := rfl
@[simp] theorem State.withCons_fg (p : ConsPos) : (s.withCons p).fg = s.fg := rfl
@[simp] theorem State.withCons_irqPc (p : ConsPos) : (s.withCons p).irqPc = s.irqPc := rfl
@[simp] theorem State.withCons_prod (p : ConsPos) : (s.withCons p).prod = s.prod := rfl
@[simp] theorem State.withCons_cons (p : ConsPos) : (s.withCons p).cons = p := rfl
@[simp] theorem State.withCons_hal (p : ConsPos) : (s.withCons p).hal = s.hal := rfl
@[simp] theorem State.withCons_gie (p : ConsPos) : (s.withCons p).gie = s.gie := rfl
@[simp] theorem State.withCons_inited (p : ConsPos) : (s.withCons p).inited = s.inited := rfl
@[simp] theorem State.withCons_lineData (p : ConsPos) : (s.withCons p).lineData = s.lineData := rfl
@[simp] theorem State.withCons_rbPort (p : ConsPos) : (s.withCons p).rbPort = s.rbPort := rfl
@[simp] theorem State.withCons_respLog (p : ConsPos) : (s.withCons p).respLog = s.respLog := rfl
@[simp] theorem State.withCons_rxRead (p : ConsPos) : (s.withCons p).rxRead = s.rxRead := rfl
@[simp] theorem State.withCons_draws (p : ConsPos) : (s.withCons p).draws = s.draws := rfl
@[simp] theorem State.withCons_agenda (p : ConsPos) : (s.withCons p).agenda = s.agenda := rfl

@[simp] theorem State.withHal_tx (c : Collaborator) : (s.withHal c).tx = s.tx := rfl
@[simp] theorem State.withHal_rx (c : Collaborator) : (s.withHal c).rx = s.rx := rfl
@[simp] theorem State.withHal_rb (c : Collaborator) : (s.withHal c).rb = s.rb := rfl
@[simp] theorem State.withHal_fg (c : Collaborator) : (s.withHal c).fg = s.fg := rfl
@[simp] theorem State.withHal_irqPc (c : Collaborator) : (s.withHal c).irqPc = s.irqPc := rfl
@[simp] theorem State.withHal_prod (c : Collaborator) : (s.withHal c).prod = s.prod := rfl
@[simp] theorem State.withHal_cons (c : Collaborator) : (s.withHal c).cons = s.cons := rfl
@[simp] theorem State.withHal_hal (c : Collaborator) : (s.withHal c).hal = c := rfl
@[simp] theorem State.withHal_gie (c : Collaborator) : (s.withHal c).gie = s.gie := rfl
@[simp] theorem State.withHal_inited (c : Collaborator) : (s.withHal c).inited = s.inited := rfl
@[simp] theorem State.withHal_lineData (c : Collaborator) : (s.withHal c).lineData = s.lineData := rfl
@[simp] theorem State.withHal_rbPort (c : Collaborator) : (s.withHal c).rbPort = s.rbPort := rfl
@[simp] theorem State.withHal_respLog (c : Collaborator) : (s.withHal c).respLog = s.respLog := rfl
@[simp] theorem State.withHal_rxRead (c : Collaborator) : (s.withHal c).rxRead = s.rxRead := rfl
@[simp] theorem State.withHal_draws (c : Collaborator) : (s.withHal c).draws = s.draws := rfl
@[simp] theorem State.withHal_agenda (c : Collaborator) : (s.withHal c).agenda = s.agenda := rfl

@[simp] theorem State.withGie_tx (b : Bool) : (s.withGie b).tx = s.tx := rfl
@[simp] theorem State.withGie_rx (b : Bool) : (s.withGie b).rx = s.rx := rfl
@[simp] theorem State.withGie_rb (b : Bool) : (s.withGie b).rb = s.rb := rfl
@[simp] theorem State.withGie_fg (b : Bool) : (s.withGie b).fg = s.fg := rfl
@[simp] theorem State.withGie_irqPc (b : Bool) : (s.withGie b).irqPc = s.irqPc := rfl
@[simp] theorem State.withGie_prod (b : Bool) : (s.withGie b).prod = s.prod := rfl
@[simp] theorem State.withGie_cons (b : Bool) : (s.withGie b).cons = s.cons := rfl
@[simp] theorem State.withGie_hal (b : Bool) : (s.withGie b).hal = s.hal := rfl
@[simp] theorem State.withGie_gie (b : Bool) : (s.withGie b).gie = b := rfl
@[simp] theorem State.withGie_inited (b : Bool) : (s.withGie b).inited = s.inited := rfl
@[simp] theorem State.withGie_lineData (b : Bool) : (s.withGie b).lineData = s.lineData := rfl
@[simp] theorem State.withGie_rbPort (b : Bool) : (s.withGie b).rbPort = s.rbPort := rfl
@[simp] theorem State.withGie_respLog (b : Bool) : (s.withGie b).respLog = s.respLog := rfl
@[simp] theorem State.withGie_rxRead (b : Bool) : (s.withGie b).rxRead = s.rxRead := rfl
@[simp] theorem State.withGie_draws (b : Bool) : (s.withGie b).draws = s.draws := rfl
@[simp] theorem State.withGie_agenda (b : Bool) : (s.withGie b).agenda = s.agenda := rfl

@[simp] theorem State.withInited_tx (b : Bool) : (s.withInited b).tx = s.tx := rfl
@[simp] theorem State.withInited_rx (b : Bool) : (s.withInited b).rx = s.rx := rfl
@[simp] theorem State.withInited_rb (b : Bool) : (s.withInited b).rb = s.rb := rfl
@[simp] theorem State.withInited_fg (b : Bool) : (s.withInited b).fg = s.fg := rfl
@[simp] theorem State.withInited_irqPc (b : Bool) : (s.withInited b).irqPc = s.irqPc := rfl
@[simp] theorem State.withInited_prod (b : Bool) : (s.withInited b).prod = s.prod := rfl
@[simp] theorem State.withInited_cons (b : Bool) : (s.withInited b).cons = s.cons := rfl
@[simp] theorem State.withInited_hal (b : Bool) : (s.withInited b).hal = s.hal := rfl
@[simp] theorem State.withInited_gie (b : Bool) : (s.withInited b).gie = s.gie := rfl
@[simp] theorem State.withInited_inited (b : Bool) : (s.withInited b).inited = b := rfl
@[simp] theorem State.withInited_lineData (b : Bool) : (s.withInited b).lineData = s.lineData := rfl
@[simp] theorem State.withInited_rbPort (b : Bool) : (s.withInited b).rbPort = s.rbPort := rfl
@[simp] theorem State.withInited_respLog (b : Bool) : (s.withInited b).respLog = s.respLog := rfl
@[simp] theorem State.withInited_rxRead (b : Bool) : (s.withInited b).rxRead = s.rxRead := rfl
@[simp] theorem State.withInited_draws (b : Bool) : (s.withInited b).draws = s.draws := rfl
@[simp] theorem State.withInited_agenda (b : Bool) : (s.withInited b).agenda = s.agenda := rfl

@[simp] theorem State.drawn_tx : s.drawn.tx = s.tx := rfl
@[simp] theorem State.drawn_rx : s.drawn.rx = s.rx := rfl
@[simp] theorem State.drawn_rb : s.drawn.rb = s.rb := rfl
@[simp] theorem State.drawn_fg : s.drawn.fg = s.fg := rfl
@[simp] theorem State.drawn_irqPc : s.drawn.irqPc = s.irqPc := rfl
@[simp] theorem State.drawn_prod : s.drawn.prod = s.prod := rfl
@[simp] theorem State.drawn_cons : s.drawn.cons = s.cons := rfl
@[simp] theorem State.drawn_hal : s.drawn.hal = s.hal := rfl
@[simp] theorem State.drawn_gie : s.drawn.gie = s.gie := rfl
@[simp] theorem State.drawn_inited : s.drawn.inited = s.inited := rfl
@[simp] theorem State.drawn_lineData : s.drawn.lineData = s.lineData := rfl
@[simp] theorem State.drawn_rbPort : s.drawn.rbPort = s.rbPort := rfl
@[simp] theorem State.drawn_respLog : s.drawn.respLog = s.respLog := rfl
@[simp] theorem State.drawn_rxRead : s.drawn.rxRead = s.rxRead := rfl
@[simp] theorem State.drawn_draws : s.drawn.draws = s.draws + 1 := rfl
@[simp] theorem State.drawn_agenda : s.drawn.agenda = s.agenda := rfl

@[simp] theorem State.answer_tx (p : Port) (rw : Word) : (s.answer p rw).tx = s.tx := rfl
@[simp] theorem State.answer_rx (p : Port) (rw : Word) : (s.answer p rw).rx = s.rx := rfl
@[simp] theorem State.answer_rb (p : Port) (rw : Word) : (s.answer p rw).rb = s.rb := rfl
@[simp] theorem State.answer_fg (p : Port) (rw : Word) : (s.answer p rw).fg = s.fg := rfl
@[simp] theorem State.answer_irqPc (p : Port) (rw : Word) : (s.answer p rw).irqPc = s.irqPc := rfl
@[simp] theorem State.answer_prod (p : Port) (rw : Word) : (s.answer p rw).prod = s.prod := rfl
@[simp] theorem State.answer_cons (p : Port) (rw : Word) : (s.answer p rw).cons = s.cons := rfl
@[simp] theorem State.answer_hal (p : Port) (rw : Word) : (s.answer p rw).hal = s.hal := rfl
@[simp] theorem State.answer_gie (p : Port) (rw : Word) : (s.answer p rw).gie = s.gie := rfl
@[simp] theorem State.answer_inited (p : Port) (rw : Word) : (s.answer p rw).inited = s.inited := rfl
@[simp] theorem State.answer_lineData (p : Port) (rw : Word) : (s.answer p rw).lineData = s.lineData := rfl
@[simp] theorem State.answer_rbPort (p : Port) (rw : Word) : (s.answer p rw).rbPort = s.rbPort := rfl
@[simp] theorem State.answer_respLog (p : Port) (rw : Word) : (s.answer p rw).respLog = s.respLog ++ [(p, rw)] := rfl
@[simp] theorem State.answer_rxRead (p : Port) (rw : Word) : (s.answer p rw).rxRead = s.rxRead := rfl
@[simp] theorem State.answer_draws (p : Port) (rw : Word) : (s.answer p rw).draws = s.draws := rfl
@[simp] theorem State.answer_agenda (p : Port) (rw : Word) : (s.answer p rw).agenda = s.agenda := rfl

@[simp] theorem State.noteRead_tx (x : Sample) (room : Bool) : (s.noteRead x room).tx = s.tx := rfl
@[simp] theorem State.noteRead_rx (x : Sample) (room : Bool) : (s.noteRead x room).rx = s.rx := rfl
@[simp] theorem State.noteRead_rb (x : Sample) (room : Bool) : (s.noteRead x room).rb = s.rb := rfl
@[simp] theorem State.noteRead_fg (x : Sample) (room : Bool) : (s.noteRead x room).fg = s.fg := rfl
@[simp] theorem State.noteRead_irqPc (x : Sample) (room : Bool) : (s.noteRead x room).irqPc = s.irqPc := rfl
@[simp] theorem State.noteRead_prod (x : Sample) (room : Bool) : (s.noteRead x room).prod = s.prod := rfl
@[simp] theorem State.noteRead_cons (x : Sample) (room : Bool) : (s.noteRead x room).cons = s.cons := rfl
@[simp] theorem State.noteRead_hal (x : Sample) (room : Bool) : (s.noteRead x room).hal = s.hal := rfl
@[simp] theorem State.noteRead_gie (x : Sample) (room : Bool) : (s.noteRead x room).gie = s.gie := rfl
@[simp] theorem State.noteRead_inited (x : Sample) (room : Bool) : (s.noteRead x room).inited = s.inited := rfl
@[simp] theorem State.noteRead_lineData (x : Sample) (room : Bool) : (s.noteRead x room).lineData = s.lineData := rfl
@[simp] theorem State.noteRead_rbPort (x : Sample) (room : Bool) : (s.noteRead x room).rbPort = s.rbPort := rfl
@[simp] theorem State.noteRead_respLog (x : Sample) (room : Bool) : (s.noteRead x room).respLog = s.respLog := rfl
@[simp] theorem State.noteRead_rxRead (x : Sample) (room : Bool) : (s.noteRead x room).rxRead = s.rxRead ++ [(x, room)] := rfl
@[simp] theorem State.noteRead_draws (x : Sample) (room : Bool) : (s.noteRead x room).draws = s.draws := rfl
@[simp] theorem State.noteRead_agenda (x : Sample) (room : Bool) : (s.noteRead x room).agenda = s.agenda := rfl

@[simp] theorem State.restAgenda_tx : s.restAgenda.tx = s.tx := rfl
@[simp] theorem State.restAgenda_rx : s.restAgenda.rx = s.rx := rfl
@[simp] theorem State.restAgenda_rb : s.restAgenda.rb = s.rb := rfl
@[simp] theorem State.restAgenda_fg : s.restAgenda.fg = s.fg := rfl
@[simp] theorem State.restAgenda_irqPc : s.restAgenda.irqPc = s.irqPc := rfl
@[simp] theorem State.restAgenda_prod : s.restAgenda.prod = s.prod := rfl
@[simp] theorem State.restAgenda_cons : s.restAgenda.cons = s.cons := rfl
@[simp] theorem State.restAgenda_hal : s.restAgenda.hal = s.hal := rfl
@[simp] theorem State.restAgenda_gie : s.restAgenda.gie = s.gie := rfl
@[simp] theorem State.restAgenda_inited : s.restAgenda.inited = s.inited := rfl
@[simp] theorem State.restAgenda_lineData : s.restAgenda.lineData = s.lineData := rfl
@[simp] theorem State.restAgenda_rbPort : s.restAgenda.rbPort = s.rbPort := rfl
@[simp] theorem State.restAgenda_respLog : s.restAgenda.respLog = s.respLog := rfl
@[simp] theorem State.restAgenda_rxRead : s.restAgenda.rxRead = s.rxRead := rfl
@[simp] theorem State.restAgenda_draws : s.restAgenda.draws = s.draws := rfl
@[simp] theorem State.restAgenda_agenda : s.restAgenda.agenda = s.agenda.tail := rfl

@[simp] theorem present_tx (p : Port) (line : List Byte) : (present p line s).tx = s.tx := rfl
@[simp] theorem present_rx (p : Port) (line : List Byte) : (present p line s).rx = s.rx := rfl
@[simp] theorem present_rb (p : Port) (line : List Byte) : (present p line s).rb = s.rb := rfl
@[simp] theorem present_fg (p : Port) (line : List Byte) : (present p line s).fg = s.fg := rfl
@[simp] theorem present_irqPc (p : Port) (line : List Byte) : (present p line s).irqPc = s.irqPc := rfl
@[simp] theorem present_prod (p : Port) (line : List Byte) : (present p line s).prod = s.prod := rfl
@[simp] theorem present_cons (p : Port) (line : List Byte) : (present p line s).cons = s.cons := rfl
@[simp] theorem present_hal (p : Port) (line : List Byte) : (present p line s).hal = s.hal := rfl
@[simp] theorem present_gie (p : Port) (line : List Byte) : (present p line s).gie = s.gie := rfl
@[simp] theorem present_inited (p : Port) (line : List Byte) : (present p line s).inited = s.inited := rfl
@[simp] theorem present_lineData (p : Port) (line : List Byte) : (present p line s).lineData = line := rfl
@[simp] theorem present_respLog (p : Port) (line : List Byte) : (present p line s).respLog = s.respLog := rfl
@[simp] theorem present_rxRead (p : Port) (line : List Byte) : (present p line s).rxRead = s.rxRead := rfl
@[simp] theorem present_draws (p : Port) (line : List Byte) : (present p line s).draws = s.draws := rfl
@[simp] theorem present_agenda (p : Port) (line : List Byte) : (present p line s).agenda = s.agenda := rfl

end updates

section collaborator
variable (c : Collaborator)

@[simp] theorem Collaborator.writeTxRegister_txArmed (v : Byte) : (c.writeTxRegister v).txArmed = c.txArmed := rfl
@[simp] theorem Collaborator.writeTxRegister_rxIrqEnabled (v : Byte) : (c.writeTxRegister v).rxIrqEnabled = c.rxIrqEnabled := rfl
@[simp] theorem Collaborator.writeTxRegister_rxEnabled (v : Byte) : (c.writeTxRegister v).rxEnabled = c.rxEnabled := rfl
@[simp] theorem Collaborator.writeTxRegister_configured (v : Byte) : (c.writeTxRegister v).configured = c.configured := rfl
@[simp] theorem Collaborator.writeTxRegister_txRegEmpty (v : Byte) : (c.writeTxRegister v).txRegEmpty = false := rfl
@[simp] theorem Collaborator.writeTxRegister_rxSample (v : Byte) : (c.writeTxRegister v).rxSample = c.rxSample := rfl
@[simp] theorem Collaborator.writeTxRegister_txLog (v : Byte) : (c.writeTxRegister v).txLog = c.txLog ++ [v] := rfl
@[simp] theorem Collaborator.writeTxRegister_halLog (v : Byte) : (c.writeTxRegister v).halLog = c.halLog ++ [.writeTxRegister v] := rfl
@[simp] theorem Collaborator.writeTxRegister_rxArrived (v : Byte) : (c.writeTxRegister v).rxArrived = c.rxArrived := rfl

@[simp] theorem Collaborator.readRxRegister_txArmed : (c.readRxRegister).txArmed = c.txArmed := rfl
@[simp] theorem Collaborator.readRxRegister_rxIrqEnabled : (c.readRxRegister).rxIrqEnabled = c.rxIrqEnabled := rfl
@[simp] theorem Collaborator.readRxRegister_rxEnabled : (c.readRxRegister).rxEnabled = c.rxEnabled := rfl
@[simp] theorem Collaborator.readRxRegister_configured : (c.readRxRegister).configured = c.configured := rfl
@[simp] theorem Collaborator.readRxRegister_txRegEmpty : (c.readRxRegister).txRegEmpty = c.txRegEmpty := rfl
@[simp] theorem Collaborator.readRxRegister_rxSample : (c.readRxRegister).rxSample = none := rfl
@[simp] theorem Collaborator.readRxRegister_txLog : (c.readRxRegister).txLog = c.txLog := rfl
@[simp] theorem Collaborator.readRxRegister_halLog : (c.readRxRegister).halLog = c.halLog ++ [.readRxRegister] := rfl
@[simp] theorem Collaborator.readRxRegister_rxArrived : (c.readRxRegister).rxArrived = c.rxArrived := rfl

@[simp] theorem Collaborator.setTxInterruptEnabled_txArmed (b : Bool) : (c.setTxInterruptEnabled b).txArmed = b := rfl
@[simp] theorem Collaborator.setTxInterruptEnabled_rxIrqEnabled (b : Bool) : (c.setTxInterruptEnabled b).rxIrqEnabled = c.rxIrqEnabled := rfl
@[simp] theorem Collaborator.setTxInterruptEnabled_rxEnabled (b : Bool) : (c.setTxInterruptEnabled b).rxEnabled = c.rxEnabled := rfl
@[simp] theorem Collaborator.setTxInterruptEnabled_configured (b : Bool) : (c.setTxInterruptEnabled b).configured = c.configured := rfl
@[simp] theorem Collaborator.setTxInterruptEnabled_txRegEmpty (b : Bool) : (c.setTxInterruptEnabled b).txRegEmpty = c.txRegEmpty := rfl
@[simp] theorem Collaborator.setTxInterruptEnabled_rxSample (b : Bool) : (c.setTxInterruptEnabled b).rxSample = c.rxSample := rfl
@[simp] theorem Collaborator.setTxInterruptEnabled_txLog (b : Bool) : (c.setTxInterruptEnabled b).txLog = c.txLog := rfl
@[simp] theorem Collaborator.setTxInterruptEnabled_halLog (b : Bool) : (c.setTxInterruptEnabled b).halLog = c.halLog ++ [.setTxInterruptEnabled b] := rfl
@[simp] theorem Collaborator.setTxInterruptEnabled_rxArrived (b : Bool) : (c.setTxInterruptEnabled b).rxArrived = c.rxArrived := rfl

@[simp] theorem Collaborator.queryFramingError_txArmed : (c.queryFramingError).txArmed = c.txArmed := rfl
@[simp] theorem Collaborator.queryFramingError_rxIrqEnabled : (c.queryFramingError).rxIrqEnabled = c.rxIrqEnabled := rfl
@[simp] theorem Collaborator.queryFramingError_rxEnabled : (c.queryFramingError).rxEnabled = c.rxEnabled := rfl
@[simp] theorem Collaborator.queryFramingError_configured : (c.queryFramingError).configured = c.configured := rfl
@[simp] theorem Collaborator.queryFramingError_txRegEmpty : (c.queryFramingError).txRegEmpty = c.txRegEmpty := rfl
@[simp] theorem Collaborator.queryFramingError_rxSample : (c.queryFramingError).rxSample = c.rxSample := rfl
@[simp] theorem Collaborator.queryFramingError_txLog : (c.queryFramingError).txLog = c.txLog := rfl
@[simp] theorem Collaborator.queryFramingError_halLog : (c.queryFramingError).halLog = c.halLog ++ [.queryFramingError] := rfl
@[simp] theorem Collaborator.queryFramingError_rxArrived : (c.queryFramingError).rxArrived = c.rxArrived := rfl

@[simp] theorem Collaborator.queryOverrun_txArmed : (c.queryOverrun).txArmed = c.txArmed := rfl
@[simp] theorem Collaborator.queryOverrun_rxIrqEnabled : (c.queryOverrun).rxIrqEnabled = c.rxIrqEnabled := rfl
@[simp] theorem Collaborator.queryOverrun_rxEnabled : (c.queryOverrun).rxEnabled = c.rxEnabled := rfl
@[simp] theorem Collaborator.queryOverrun_configured : (c.queryOverrun).configured = c.configured := rfl
@[simp] theorem Collaborator.queryOverrun_txRegEmpty : (c.queryOverrun).txRegEmpty = c.txRegEmpty := rfl
@[simp] theorem Collaborator.queryOverrun_rxSample : (c.queryOverrun).rxSample = c.rxSample := rfl
@[simp] theorem Collaborator.queryOverrun_txLog : (c.queryOverrun).txLog = c.txLog := rfl
@[simp] theorem Collaborator.queryOverrun_halLog : (c.queryOverrun).halLog = c.halLog ++ [.queryOverrun] := rfl
@[simp] theorem Collaborator.queryOverrun_rxArrived : (c.queryOverrun).rxArrived = c.rxArrived := rfl

@[simp] theorem Collaborator.rxDisable_txArmed : (c.rxDisable).txArmed = c.txArmed := rfl
@[simp] theorem Collaborator.rxDisable_rxIrqEnabled : (c.rxDisable).rxIrqEnabled = c.rxIrqEnabled := rfl
@[simp] theorem Collaborator.rxDisable_rxEnabled : (c.rxDisable).rxEnabled = false := rfl
@[simp] theorem Collaborator.rxDisable_configured : (c.rxDisable).configured = c.configured := rfl
@[simp] theorem Collaborator.rxDisable_txRegEmpty : (c.rxDisable).txRegEmpty = c.txRegEmpty := rfl
@[simp] theorem Collaborator.rxDisable_rxSample : (c.rxDisable).rxSample = none := rfl
@[simp] theorem Collaborator.rxDisable_txLog : (c.rxDisable).txLog = c.txLog := rfl
@[simp] theorem Collaborator.rxDisable_halLog : (c.rxDisable).halLog = c.halLog ++ [.rxDisable] := rfl
@[simp] theorem Collaborator.rxDisable_rxArrived : (c.rxDisable).rxArrived = c.rxArrived := rfl

@[simp] theorem Collaborator.rxEnable_txArmed : (c.rxEnable).txArmed = c.txArmed := rfl
@[simp] theorem Collaborator.rxEnable_rxIrqEnabled : (c.rxEnable).rxIrqEnabled = c.rxIrqEnabled := rfl
@[simp] theorem Collaborator.rxEnable_rxEnabled : (c.rxEnable).rxEnabled = true := rfl
@[simp] theorem Collaborator.rxEnable_configured : (c.rxEnable).configured = c.configured := rfl
@[simp] theorem Collaborator.rxEnable_txRegEmpty : (c.rxEnable).txRegEmpty = c.txRegEmpty := rfl
@[simp] theorem Collaborator.rxEnable_rxSample : (c.rxEnable).rxSample = c.rxSample := rfl
@[simp] theorem Collaborator.rxEnable_txLog : (c.rxEnable).txLog = c.txLog := rfl
@[simp] theorem Collaborator.rxEnable_halLog : (c.rxEnable).halLog = c.halLog ++ [.rxEnable] := rfl
@[simp] theorem Collaborator.rxEnable_rxArrived : (c.rxEnable).rxArrived = c.rxArrived := rfl

@[simp] theorem Collaborator.configureLine_txArmed (b : Bool) : (c.configureLine b).txArmed = c.txArmed := rfl
@[simp] theorem Collaborator.configureLine_rxIrqEnabled (b : Bool) : (c.configureLine b).rxIrqEnabled = true := rfl
@[simp] theorem Collaborator.configureLine_rxEnabled (b : Bool) : (c.configureLine b).rxEnabled = true := rfl
@[simp] theorem Collaborator.configureLine_configured (b : Bool) : (c.configureLine b).configured = true := rfl
@[simp] theorem Collaborator.configureLine_txRegEmpty (b : Bool) : (c.configureLine b).txRegEmpty = b := rfl
@[simp] theorem Collaborator.configureLine_rxSample (b : Bool) : (c.configureLine b).rxSample = none := rfl
@[simp] theorem Collaborator.configureLine_txLog (b : Bool) : (c.configureLine b).txLog = c.txLog := rfl
@[simp] theorem Collaborator.configureLine_halLog (b : Bool) : (c.configureLine b).halLog = c.halLog ++ [.configureLine] := rfl
@[simp] theorem Collaborator.configureLine_rxArrived (b : Bool) : (c.configureLine b).rxArrived = c.rxArrived := rfl

end collaborator

section buffer
variable (B : RingBuffer)

@[simp] theorem RingBuffer.writeSlot_space (i : Nat) (v : Byte) : (B.writeSlot i v).space = B.space := rfl
@[simp] theorem RingBuffer.writeSlot_cap (i : Nat) (v : Byte) : (B.writeSlot i v).cap = B.cap := rfl
@[simp] theorem RingBuffer.writeSlot_storage (i : Nat) (v : Byte) : (B.writeSlot i v).storage = B.storage.write i v := rfl
@[simp] theorem RingBuffer.writeSlot_head (i : Nat) (v : Byte) : (B.writeSlot i v).head = B.head := rfl
@[simp] theorem RingBuffer.writeSlot_tail (i : Nat) (v : Byte) : (B.writeSlot i v).tail = B.tail := rfl
@[simp] theorem RingBuffer.writeSlot_pushed (i : Nat) (v : Byte) : (B.writeSlot i v).pushed = B.pushed := rfl
@[simp] theorem RingBuffer.writeSlot_popped (i : Nat) (v : Byte) : (B.writeSlot i v).popped = B.popped := rfl
@[simp] theorem RingBuffer.writeSlot_n (i : Nat) (v : Byte) : (B.writeSlot i v).n = B.n := rfl

@[simp] theorem RingBuffer.emptied_space : B.emptied.space = B.space := rfl
@[simp] theorem RingBuffer.emptied_cap : B.emptied.cap = B.cap := rfl
@[simp] theorem RingBuffer.emptied_storage : B.emptied.storage = B.storage := rfl
@[simp] theorem RingBuffer.emptied_head : B.emptied.head = 0 := rfl
@[simp] theorem RingBuffer.emptied_tail : B.emptied.tail = 0 := rfl
@[simp] theorem RingBuffer.emptied_pushed : B.emptied.pushed = B.pushed := rfl
@[simp] theorem RingBuffer.emptied_popped : B.emptied.popped = B.popped := rfl
@[simp] theorem RingBuffer.emptied_n : B.emptied.n = B.n := rfl

end buffer

end Sys2Proof.Machine
end

