-- ==== Sys2Proof/Laws/Micro.lean ====
section
/-! SUPPORT. What each shared operation does, said once: the whole push, pop and the stand-alone and
foreground runs as one function of the buffer (R117), taking a handler (R229). -/

namespace Sys2Proof.Machine

/-- The buffer after a successful push of `v`: the byte in slot `head`, `head` advanced (R111). -/
def RingBuffer.pushed1 (B : RingBuffer) (v : Byte) : RingBuffer :=
  { B with storage := B.storage.write B.head v, head := advance B.n B.head, pushed := B.pushed ++ [v] }

/-- The buffer after a pop that returned a byte: `tail` advanced (R112). -/
def RingBuffer.popped1 (B : RingBuffer) : RingBuffer :=
  { B with tail := advance B.n B.tail, popped := B.popped ++ [B.readSlot B.tail] }

/-- A push with no other agent in between (R117). -/
theorem pushWhole_eq (v : Byte) (B : RingBuffer) :
    pushWhole v B = if advance B.n B.head = B.tail then (B, .full) else (B.pushed1 v, .ok) := by
  by_cases h : advance B.n B.head = B.tail <;>
    simp [pushWhole, runPush, pushMicro, h, RingBuffer.pushed1, RingBuffer.writeSlot]

/-- A pop with no other agent in between (R117). -/
theorem popWhole_eq (B : RingBuffer) :
    popWhole B = if B.head = B.tail then (B, .empty) else (B.popped1, .some (B.readSlot B.tail)) := by
  by_cases h : B.head = B.tail <;> simp [popWhole, runPop, popMicro, h, RingBuffer.popped1]

@[simp] theorem RingBuffer.pushed1_n (B : RingBuffer) (v : Byte) : (B.pushed1 v).n = B.n := rfl
@[simp] theorem RingBuffer.pushed1_head (B : RingBuffer) (v : Byte) : (B.pushed1 v).head = advance B.n B.head := rfl
@[simp] theorem RingBuffer.pushed1_tail (B : RingBuffer) (v : Byte) : (B.pushed1 v).tail = B.tail := rfl
@[simp] theorem RingBuffer.pushed1_popped (B : RingBuffer) (v : Byte) : (B.pushed1 v).popped = B.popped := rfl
@[simp] theorem RingBuffer.pushed1_pushed (B : RingBuffer) (v : Byte) : (B.pushed1 v).pushed = B.pushed ++ [v] := rfl
@[simp] theorem RingBuffer.pushed1_storage (B : RingBuffer) (v : Byte) :
    (B.pushed1 v).storage = B.storage.write B.head v := rfl
@[simp] theorem RingBuffer.popped1_n (B : RingBuffer) : B.popped1.n = B.n := rfl
@[simp] theorem RingBuffer.popped1_head (B : RingBuffer) : B.popped1.head = B.head := rfl
@[simp] theorem RingBuffer.popped1_tail (B : RingBuffer) : B.popped1.tail = advance B.n B.tail := rfl
@[simp] theorem RingBuffer.popped1_pushed (B : RingBuffer) : B.popped1.pushed = B.pushed := rfl
@[simp] theorem RingBuffer.popped1_popped (B : RingBuffer) : B.popped1.popped = B.popped ++ [B.readSlot B.tail] := rfl
@[simp] theorem RingBuffer.popped1_storage (B : RingBuffer) : B.popped1.storage = B.storage := rfl

theorem RingBuffer.readSlot_pushed1_head (B : RingBuffer) (v : Byte) : (B.pushed1 v).readSlot B.head = v :=
  B.readSlot_writeSlot_same B.head v

theorem RingBuffer.readSlot_pushed1_other (B : RingBuffer) (v : Byte) {i : Nat} (h : i ≠ B.head) :
    (B.pushed1 v).readSlot i = B.readSlot i :=
  B.readSlot_writeSlot_other v h

/-- The contents after a successful push (R117). -/
theorem RingBuffer.contents_pushed1 (B : RingBuffer) (v : Byte) (hh : B.head < B.n) (ht : B.tail < B.n)
    (hne : advance B.n B.head ≠ B.tail) : (B.pushed1 v).contents = B.contents ++ [v] := by
  have h1 : (B.pushed1 v).contents = (B.writeSlot B.head v).contents ++ [(B.writeSlot B.head v).readSlot B.head] :=
    RingBuffer.contents_publish (B := B.writeSlot B.head v) (B' := B.pushed1 v) hh ht hne rfl rfl rfl (fun _ => rfl)
  rw [h1, B.contents_writeSlot_head v hh ht, B.readSlot_writeSlot_same]

/-- The contents before and after a pop that returned a byte (R117). -/
theorem RingBuffer.contents_popped1 (B : RingBuffer) (hh : B.head < B.n) (ht : B.tail < B.n)
    (hne : B.head ≠ B.tail) : B.contents = B.readSlot B.tail :: B.popped1.contents :=
  RingBuffer.contents_release hh ht hne rfl rfl rfl (fun _ => rfl)

/-- A run of the producer over a push it has just begun. -/
theorem runProd_push (s : State) (v : Byte) :
    runProd 4 (s.withProd (.push (.pu1 v))) =
      ((s.withRb (pushWhole v s.rb).1).withProd .idle).answer .prod (pushWhole v s.rb).2.rw := by
  rw [pushWhole_eq]
  by_cases h : advance s.rb.n s.rb.head = s.rb.tail
  · simp [runProd, prodMicro, pushMicro, h, State.withProd, State.withRb, State.answer]
  · simp [runProd, prodMicro, pushMicro, State.withProd, State.withRb, State.answer, RingBuffer.pushed1,
      RingBuffer.writeSlot, RingBuffer.n] at h ⊢
    simp [h]

/-- A run of the consumer over a pop it has just begun. -/
theorem runCons_pop (s : State) :
    runCons 4 (s.withCons (.pop .po1)) =
      ((s.withRb (popWhole s.rb).1).withCons .idle).answer .cons (popWhole s.rb).2.rw := by
  rw [popWhole_eq]
  by_cases h : s.rb.head = s.rb.tail
  · simp [runCons, consMicro, popMicro, h, State.withCons, State.withRb, State.answer]
  · simp [runCons, consMicro, popMicro, h, State.withCons, State.withRb, State.answer, RingBuffer.popped1,
      RingBuffer.n]

/-- A run of the foreground over a READ_BYTE it has just begun. -/
theorem runFg_readByte (s : State) :
    runFg 4 (s.withFg (.readByte .po1)) =
      ((s.withRx (popWhole s.rx).1).withFg .idle).answer .fg (popWhole s.rx).2.rw := by
  rw [popWhole_eq]
  by_cases h : s.rx.head = s.rx.tail
  · simp [runFg, fgMicro, popMicro, h, State.withFg, State.withRx, State.answer]
  · simp [runFg, fgMicro, popMicro, h, State.withFg, State.withRx, State.answer, RingBuffer.popped1,
      RingBuffer.n]

/-- What a SEND_BYTE leaves: the push on TX, and the interrupt armed when it returned Ok (R142). -/
def sendEffect (v : Byte) (s : State) : State :=
  if advance s.tx.n s.tx.head = s.tx.tail then s
  else halSetTxInterruptEnabled true (s.withTx (s.tx.pushed1 v))

/-- What a SEND_BYTE reports. -/
def sendResult (s : State) : PushResult :=
  if advance s.tx.n s.tx.head = s.tx.tail then .full else .ok

/-- A run of the foreground over a SEND_BYTE it has just begun. -/
theorem runFg_sendByte (s : State) (v : Byte) :
    runFg 5 (s.withFg (.sendByte (.push (.pu1 v)))) =
      ((sendEffect v s).withFg .idle).answer .fg (sendResult s).rw := by
  by_cases h : advance s.tx.n s.tx.head = s.tx.tail
  · simp [runFg, fgMicro, sendMicro, pushMicro, h, State.withFg, State.withTx, State.answer, sendEffect, sendResult]
  · simp [runFg, fgMicro, sendMicro, pushMicro, State.withFg, State.withTx, State.answer, sendEffect, sendResult,
      halSetTxInterruptEnabled, State.withHal, RingBuffer.pushed1, RingBuffer.writeSlot, RingBuffer.n] at h ⊢
    simp [h]

theorem runFg_idle (k : Nat) (s : State) (h : s.fg = .idle) : runFg k s = s := by
  cases k <;> simp [runFg, h]

/-- Once the foreground is idle, more steps change nothing, so runs compose. -/
theorem runFg_add (a b : Nat) (s : State) : runFg (a + b) s = runFg b (runFg a s) := by
  induction a generalizing s with
  | zero => simp [runFg]
  | succ a ih =>
    rw [Nat.add_right_comm]
    by_cases h : s.fg = .idle
    · rw [runFg_idle _ s h, runFg_idle _ s h, runFg_idle _ s h]
    · simp only [runFg, h, if_false]
      exact ih _

/-- A handler that is taken ran its body from a state that met R229. -/
theorem takeHandler_next {req rng : Bool} {body : State → State} {s t : State}
    (h : takeHandler req rng body s = .next t) :
    s.inited = true ∧ req = true ∧ s.gie = true ∧ rng = true ∧ t = body s := by
  unfold takeHandler at h
  split at h
  · cases h
  · rename_i hi
    split at h
    · rename_i hr
      split at h
      · rename_i hg
        simp only [Bool.and_eq_true] at hr
        cases h
        exact ⟨by simpa using hi, hr.1.1, hr.1.2, hg, rfl⟩
      · cases h
    · cases h

/-- When R229 holds, the handler is taken. -/
theorem takeHandler_taken {req rng : Bool} {body : State → State} {s : State} (hi : s.inited = true)
    (hr : req = true) (hg : s.gie = true) (hn : rng = true) : takeHandler req rng body s = .next (body s) := by
  have hp : s.irqPc = .idle := by cases s.irqPc; rfl
  simp [takeHandler, hi, hr, hg, hn, hp, handlerEntry, handlerReturn]

/-- What an issued-then-run operation can do: the issue's next state, run. -/
theorem andThen_next {r : Result} {run : State → State} {t : State} (h : andThen r run = .next t) :
    ∃ s', r = .next s' ∧ t = run s' := by
  cases r with
  | next s' => exact ⟨s', rfl, by simpa [andThen] using h.symm⟩
  | fault e => cases h
  | refused e => cases h

/-- What issuing a foreground operation can do. -/
theorem issueFg_next {p : FgPos} {s t : State} (h : issueFg p s = .next t) :
    s.inited = true ∧ s.fg = .idle ∧ fgInRange (s.withFg p) = true ∧ t = s.withFg p := by
  unfold issueFg at h
  split_ifs at h with h1 h2 h3
  cases h
  exact ⟨by simpa using h1, by simpa using h2, h3, rfl⟩

theorem issueProd_next {p : ProdPos} {s t : State} (h : issueProd p s = .next t) :
    s.prod = .idle ∧ prodInRange (s.withProd p) = true ∧ t = s.withProd p := by
  unfold issueProd at h
  split_ifs at h with h2 h3
  cases h
  exact ⟨by simpa using h2, h3, rfl⟩

theorem issueCons_next {p : ConsPos} {s t : State} (h : issueCons p s = .next t) :
    s.cons = .idle ∧ consInRange (s.withCons p) = true ∧ t = s.withCons p := by
  unfold issueCons at h
  split_ifs at h with h2 h3
  cases h
  exact ⟨by simpa using h2, h3, rfl⟩

/-- What a foreground turn can do. -/
theorem fgTurn_next {s t : State} (h : fgTurn s = .next t) :
    s.fg ≠ .idle ∧ fgInRange s = true ∧ t = fgMicro s := by
  unfold fgTurn at h
  split_ifs at h with h1 h2
  cases h
  exact ⟨h1, h2, rfl⟩

theorem prodTurn_next {s t : State} (h : prodTurn s = .next t) :
    s.prod ≠ .idle ∧ prodInRange s = true ∧ t = prodMicro s := by
  unfold prodTurn at h
  split_ifs at h with h1 h2
  cases h
  exact ⟨h1, h2, rfl⟩

theorem consTurn_next {s t : State} (h : consTurn s = .next t) :
    s.cons ≠ .idle ∧ consInRange s = true ∧ t = consMicro s := by
  unfold consTurn at h
  split_ifs at h with h1 h2
  cases h
  exact ⟨h1, h2, rfl⟩

/-- A run that every micro-step keeps an invariant through keeps it. -/
theorem runFg_keeps {P : State → Prop} (hP : ∀ s, P s → s.fg ≠ .idle → P (fgMicro s)) (k : Nat) (s : State)
    (h : P s) : P (runFg k s) := by
  induction k generalizing s with
  | zero => exact h
  | succ k ih =>
    unfold runFg
    split
    · exact h
    · rename_i hi
      exact ih _ (hP s h hi)

theorem runProd_keeps {P : State → Prop} (hP : ∀ s, P s → s.prod ≠ .idle → P (prodMicro s)) (k : Nat) (s : State)
    (h : P s) : P (runProd k s) := by
  induction k generalizing s with
  | zero => exact h
  | succ k ih =>
    unfold runProd
    split
    · exact h
    · rename_i hi
      exact ih _ (hP s h hi)

theorem runCons_keeps {P : State → Prop} (hP : ∀ s, P s → s.cons ≠ .idle → P (consMicro s)) (k : Nat) (s : State)
    (h : P s) : P (runCons k s) := by
  induction k generalizing s with
  | zero => exact h
  | succ k ih =>
    unfold runCons
    split
    · exact h
    · rename_i hi
      exact ih _ (hP s h hi)

end Sys2Proof.Machine
end

