-- ==== Sys2Proof/Laws/PerInstr.lean ====
section
/-! SUPPORT. Per-instruction family RowPattern: the word the encoder writes for an operation is covered by the
row of spec/opcode_table.json with the operation's mnemonic (R84). -/

namespace Sys2Proof

/-- The encoded word matches its own row of the opcode table. -/
def Laws.RowPattern.Statement (i : Instr) : Prop :=
  ∃ r ∈ opcodeTable, r.mnemonic = i.mnemonic ∧ r.covers (encode i) = true

theorem wordOf_and (a b m n : Byte) : wordOf a b &&& wordOf m n = wordOf (a &&& m) (b &&& n) := by
  apply BitVec.eq_of_getLsbD_eq
  intro i _
  simp only [wordOf, BitVec.getLsbD_and, BitVec.getLsbD_append]
  split <;> rfl

theorem byte_and_ones (c : Byte) : c &&& 0xFF#8 = c := BitVec.and_allOnes

theorem byte_and_zero (c : Byte) : c &&& 0x00#8 = 0x00#8 := BitVec.and_zero

theorem OpcodeRow.covers_iff (r : OpcodeRow) (w : Word) : r.covers w = true ↔ w &&& r.mask = r.value := by
  simp [OpcodeRow.covers]

/-- A row whose mask leaves the operand byte free covers every operand. -/
theorem OpcodeRow.covers_byte (s : String) (c v : Byte) :
    OpcodeRow.covers ⟨s, wordOf c 0x00#8, wordOf 0xFF#8 0x00#8⟩ (wordOf c v) = true := by
  rw [OpcodeRow.covers_iff, wordOf_and, byte_and_ones, byte_and_zero]

theorem Laws.RowPattern.rbPush (v : Byte) : Statement (.rbPush v) :=
  ⟨⟨"RB_PUSH", 0x0100, 0xFF00⟩, by decide, rfl, OpcodeRow.covers_byte _ 0x01#8 v⟩
theorem Laws.RowPattern.rbPop : Statement .rbPop := ⟨⟨"RB_POP", 0x0200, 0xFFFF⟩, by decide, rfl, by decide⟩
theorem Laws.RowPattern.rbLen : Statement .rbLen := ⟨⟨"RB_LEN", 0x0300, 0xFFFF⟩, by decide, rfl, by decide⟩
theorem Laws.RowPattern.init : Statement .init := ⟨⟨"INIT", 0x1000, 0xFFFF⟩, by decide, rfl, by decide⟩
theorem Laws.RowPattern.sendByte (v : Byte) : Statement (.sendByte v) :=
  ⟨⟨"SEND_BYTE", 0x1100, 0xFF00⟩, by decide, rfl, OpcodeRow.covers_byte _ 0x11#8 v⟩
theorem Laws.RowPattern.sendLine (h : Bool) : Statement (.sendLine h) :=
  ⟨⟨"SEND_LINE", 0x1200, 0xFFFE⟩, by decide, rfl, by cases h <;> decide⟩
theorem Laws.RowPattern.readByte : Statement .readByte :=
  ⟨⟨"READ_BYTE", 0x1300, 0xFFFF⟩, by decide, rfl, by decide⟩
theorem Laws.RowPattern.rxLen : Statement .rxLen := ⟨⟨"RX_LEN", 0x1400, 0xFFFF⟩, by decide, rfl, by decide⟩
theorem Laws.RowPattern.irqRx : Statement .irqRx := ⟨⟨"IRQ_RX", 0x2000, 0xFFFF⟩, by decide, rfl, by decide⟩
theorem Laws.RowPattern.irqTx : Statement .irqTx := ⟨⟨"IRQ_TX", 0x2100, 0xFFFF⟩, by decide, rfl, by decide⟩
theorem Laws.RowPattern.writeTxRegister (v : Byte) : Statement (.writeTxRegister v) :=
  ⟨⟨"WRITE_TX_REGISTER", 0x3000, 0xFF00⟩, by decide, rfl, OpcodeRow.covers_byte _ 0x30#8 v⟩
theorem Laws.RowPattern.readRxRegister : Statement .readRxRegister :=
  ⟨⟨"READ_RX_REGISTER", 0x3100, 0xFFFF⟩, by decide, rfl, by decide⟩
theorem Laws.RowPattern.setTxInterruptEnabled (b : Bool) : Statement (.setTxInterruptEnabled b) :=
  ⟨⟨"SET_TX_INTERRUPT_ENABLED", 0x3200, 0xFFFE⟩, by decide, rfl, by cases b <;> decide⟩
theorem Laws.RowPattern.queryFramingError : Statement .queryFramingError :=
  ⟨⟨"QUERY_FRAMING_ERROR", 0x3300, 0xFFFF⟩, by decide, rfl, by decide⟩
theorem Laws.RowPattern.queryOverrun : Statement .queryOverrun :=
  ⟨⟨"QUERY_OVERRUN", 0x3400, 0xFFFF⟩, by decide, rfl, by decide⟩
theorem Laws.RowPattern.rxDisable : Statement .rxDisable :=
  ⟨⟨"RX_DISABLE", 0x3500, 0xFFFF⟩, by decide, rfl, by decide⟩
theorem Laws.RowPattern.rxEnable : Statement .rxEnable :=
  ⟨⟨"RX_ENABLE", 0x3600, 0xFFFF⟩, by decide, rfl, by decide⟩
theorem Laws.RowPattern.configureLine : Statement .configureLine :=
  ⟨⟨"CONFIGURE_LINE", 0x3700, 0xFFFF⟩, by decide, rfl, by decide⟩
theorem Laws.RowPattern.envTxReady : Statement .envTxReady :=
  ⟨⟨"ENV_TX_READY", 0x4000, 0xFFFF⟩, by decide, rfl, by decide⟩
theorem Laws.RowPattern.envRxArrive (f o : Bool) (d : Byte) : Statement (.envRxArrive f o d) := by
  refine ⟨⟨"ENV_RX_ARRIVE", 0x4400, 0xFC00⟩, by decide, rfl, ?_⟩
  have h : (encode (.envRxArrive f o d)) &&& wordOf 0xFC#8 0x00#8 = wordOf 0x44#8 0x00#8 := by
    unfold encode
    rw [wordOf_and, byte_and_zero]
    cases f <;> cases o <;> rfl
  exact (OpcodeRow.covers_iff _ _).mpr h
theorem Laws.RowPattern.hostGie (b : Bool) : Statement (.hostGie b) :=
  ⟨⟨"HOST_GIE", 0x4800, 0xFFFE⟩, by decide, rfl, by cases b <;> decide⟩

end Sys2Proof
end

