-- ==== Sys2Proof/Laws/Words.lean ====
section
/-! SUPPORT. A command word and its two bytes (R81): each byte is read back, and the two bytes are the word. -/

namespace Sys2Proof

theorem opcOf_wordOf (a b : Byte) : opcOf (wordOf a b) = a := by
  apply BitVec.eq_of_getLsbD_eq
  intro i hi
  simp only [opcOf, wordOf, BitVec.getLsbD_extractLsb', BitVec.getLsbD_append, hi, decide_true, Bool.true_and]
  rw [if_neg (by omega), Nat.add_sub_cancel_left]

theorem opdOf_wordOf (a b : Byte) : opdOf (wordOf a b) = b := by
  apply BitVec.eq_of_getLsbD_eq
  intro i hi
  simp only [opdOf, wordOf, BitVec.getLsbD_extractLsb', BitVec.getLsbD_append, hi, decide_true, Bool.true_and,
    Nat.zero_add, if_true]

theorem wordOf_opcOf_opdOf (w : Word) : wordOf (opcOf w) (opdOf w) = w := by
  apply BitVec.eq_of_getLsbD_eq
  intro i hi
  simp only [opcOf, opdOf, wordOf, BitVec.getLsbD_extractLsb', BitVec.getLsbD_append]
  by_cases h : i < 8
  · simp only [h, if_true, decide_true, Bool.true_and, Nat.zero_add]
  · have h1 : i - 8 < 8 := by omega
    simp only [h, if_false, h1, decide_true, Bool.true_and]
    rw [Nat.add_sub_cancel' (by omega)]

/-- Two words with the same bytes are the same word. -/
theorem word_ext {w w' : Word} (h1 : opcOf w = opcOf w') (h2 : opdOf w = opdOf w') : w = w' := by
  rw [← wordOf_opcOf_opdOf w, ← wordOf_opcOf_opdOf w', h1, h2]

theorem decode_wordOf (a b : Byte) : decode (wordOf a b) = decodeFields a b := by
  simp only [decode, opcOf_wordOf, opdOf_wordOf]

end Sys2Proof
end

