-- ==== Sys2Proof/Laws/Ports.lean ====
section
/-! SUPPORT. What a port does with a word, said once (R85, R237), and what a turn does in a run (R203). -/

namespace Sys2Proof

/-- A port takes only words of its own format (R84). -/
theorem Port.format_of_accepts {p : Port} {i : Instr} (h : p.accepts i = true) : p.format = i.format := by
  cases i <;> cases p <;> first | rfl | cases h

/-- An accepted operation is not asked of the wrong context. -/
theorem Port.wrongContext_of_accepts {p : Port} {i : Instr} (h : p.accepts i = true) : p.wrongContext i = false := by
  simp [Port.wrongContext, h]

/-- When an operation is asked of the wrong context (R237). -/
theorem Port.wrongContext_iff (p : Port) (i : Instr) :
    p.wrongContext i = true ↔ p.accepts i = false ∧ (p.format = i.format ∨ p = .irq) := by
  simp [Port.wrongContext]

end Sys2Proof

namespace Sys2Proof.Machine

theorem deliver_accepted {p : Port} {i : Instr} {cw : Word} (hd : decode cw = .ok i) (ha : p.accepts i = true)
    (m : WordMode) (line : List Byte) (s : State) : deliver p m cw line s = perform m i (present p line s) := by
  simp [deliver, hd, ha]

theorem deliver_wrongContext {p : Port} {i : Instr} {cw : Word} (hd : decode cw = .ok i)
    (hw : p.wrongContext i = true) (m : WordMode) (line : List Byte) (s : State) :
    deliver p m cw line s = .refused .wrongContext := by
  have ha := ((p.wrongContext_iff i).1 hw).1
  simp [deliver, hd, ha, hw]

theorem deliver_otherFormat {p : Port} {i : Instr} {cw : Word} (hd : decode cw = .ok i) (hp : p ≠ .irq)
    (hf : p.format ≠ i.format) (m : WordMode) (line : List Byte) (s : State) :
    deliver p m cw line s = .next (s.answer p rwIllegal) := by
  have ha : p.accepts i = false := by
    cases h : p.accepts i with
    | false => rfl
    | true => exact absurd (Port.format_of_accepts h) hf
  simp [deliver, hd, ha, Port.wrongContext, hp, hf]

theorem deliver_illegal {cw : Word} {e : DecodeError} (hd : decode cw = .error e) (p : Port) (m : WordMode)
    (line : List Byte) (s : State) : deliver p m cw line s = .next (s.answer p rwIllegal) := by
  simp [deliver, hd]

/-- Everything a word at a port can lead to when it leads to a next state: it is answered ILLEGAL, or it is performed. -/
theorem deliver_next {p : Port} {m : WordMode} {cw : Word} {line : List Byte} {s t : State}
    (h : deliver p m cw line s = .next t) :
    t = s.answer p rwIllegal ∨
    ∃ i, decode cw = .ok i ∧ p.accepts i = true ∧ perform m i (present p line s) = .next t := by
  cases hd : decode cw with
  | error e =>
    rw [deliver_illegal hd] at h
    exact .inl (Host.Outcome.next.inj h).symm
  | ok i =>
    cases ha : p.accepts i with
    | true => exact .inr ⟨i, rfl, ha, by rw [← deliver_accepted hd ha]; exact h⟩
    | false =>
      cases hw : p.wrongContext i with
      | true => rw [deliver_wrongContext hd hw] at h; cases h
      | false =>
        simp only [deliver, hd, ha, hw, Bool.false_eq_true, if_false] at h
        exact .inl (Host.Outcome.next.inj h).symm

/-- A step with one turn to come takes that turn. -/
theorem step_single (s : State) (t : Turn) :
    step { s with agenda := [t] } = takeTurn t { s with agenda := [] } := rfl

end Sys2Proof.Machine
end

