-- ==== Sys2Proof/Tests/Slice0.lean ====
section
/-! SUPPORT. The model's own tests: the well-formedness checks refuse ill-formed commands, words written out from
the spec's patterns decode, worked examples and test vectors of the spec, and a witness for the hypotheses of every
statement. -/

namespace Sys2Proof.Tests

open Sys2Proof Sys2Proof.Machine

/-! ## Well-formedness: each port and the line data (R83, R84) -/

theorem test_fg_port_refuses_rb_push : (Command.mk .fg (.rbPush 1) []).wellFormed = false := by decide
theorem test_prod_port_refuses_rb_pop : (Command.mk .prod .rbPop []).wellFormed = false := by decide
theorem test_cons_port_refuses_rb_push : (Command.mk .cons (.rbPush 1) []).wellFormed = false := by decide
theorem test_irq_port_refuses_send_byte : (Command.mk .irq (.sendByte 1) []).wellFormed = false := by decide
theorem test_hal_port_refuses_irq_tx : (Command.mk .hal .irqTx []).wellFormed = false := by decide
theorem test_env_port_refuses_host_gie : (Command.mk .env (.hostGie true) []).wellFormed = false := by decide
theorem test_host_port_refuses_env_tx_ready : (Command.mk .host .envTxReady []).wellFormed = false := by decide
theorem test_line_without_handle_is_ill_formed : (Command.mk .fg (.sendLine false) [0x41]).wellFormed = false := by
  decide
theorem test_line_with_handle_is_well_formed : (Command.mk .fg (.sendLine true) [0x41]).wellFormed = true := by decide
theorem test_rb_len_is_well_formed_at_either_port :
    (Command.mk .prod .rbLen []).wellFormed = true ∧ (Command.mk .cons .rbLen []).wellFormed = true := by decide

/-! ## Decoding: words written out bit by bit from R84 (T-E1 to T-E12) -/

theorem test_decode_rb_push : decode 0b0000000101111110#16 = .ok (.rbPush 0x7E) := by decide
theorem test_decode_rb_pop : decode 0b0000001000000000#16 = .ok .rbPop := by decide
theorem test_decode_rb_len : decode 0b0000001100000000#16 = .ok .rbLen := by decide
theorem test_decode_init : decode 0b0001000000000000#16 = .ok .init := by decide
theorem test_decode_send_byte : decode 0b0001000111111111#16 = .ok (.sendByte 0xFF) := by decide
theorem test_decode_send_line_null : decode 0b0001001000000000#16 = .ok (.sendLine false) := by decide
theorem test_decode_send_line : decode 0b0001001000000001#16 = .ok (.sendLine true) := by decide
theorem test_decode_read_byte : decode 0b0001001100000000#16 = .ok .readByte := by decide
theorem test_decode_rx_len : decode 0b0001010000000000#16 = .ok .rxLen := by decide
theorem test_decode_irq_rx : decode 0b0010000000000000#16 = .ok .irqRx := by decide
theorem test_decode_irq_tx : decode 0b0010000100000000#16 = .ok .irqTx := by decide
theorem test_decode_write_tx_register : decode 0b0011000000001101#16 = .ok (.writeTxRegister 0x0D) := by decide
theorem test_decode_read_rx_register : decode 0b0011000100000000#16 = .ok .readRxRegister := by decide
theorem test_decode_set_tx_interrupt_enabled :
    decode 0b0011001000000001#16 = .ok (.setTxInterruptEnabled true) := by decide
theorem test_decode_query_framing_error : decode 0b0011001100000000#16 = .ok .queryFramingError := by decide
theorem test_decode_query_overrun : decode 0b0011010000000000#16 = .ok .queryOverrun := by decide
theorem test_decode_rx_disable : decode 0b0011010100000000#16 = .ok .rxDisable := by decide
theorem test_decode_rx_enable : decode 0b0011011000000000#16 = .ok .rxEnable := by decide
theorem test_decode_configure_line : decode 0b0011011100000000#16 = .ok .configureLine := by decide
theorem test_decode_env_tx_ready : decode 0b0100000000000000#16 = .ok .envTxReady := by decide
theorem test_decode_env_rx_arrive_fe : decode 0b0100011000110001#16 = .ok (.envRxArrive true false 0x31) := by decide
theorem test_decode_env_rx_arrive_ovr : decode 0b0100010100110001#16 = .ok (.envRxArrive false true 0x31) := by decide
theorem test_decode_host_gie : decode 0b0100100000000001#16 = .ok (.hostGie true) := by decide
/-- T-E10. -/
theorem test_decode_illegal_words :
    decode 0x0000 = .error .unknownOpcode ∧ decode 0x0201 = .error .nonzeroOperand ∧
    decode 0x1001 = .error .nonzeroOperand ∧ decode 0x1202 = .error .nonzeroOperand ∧
    decode 0x3202 = .error .nonzeroOperand ∧ decode 0x1500 = .error .unknownOpcode ∧
    decode 0x4100 = .error .unknownOpcode ∧ decode 0xFFFF = .error .unknownOpcode := by decide
/-- D29: opcode byte first. -/
theorem test_decode_bytes_opcode_first : decodeBytes [0x11, 0x41, 0x99] = .ok (.sendByte 0x41, [0x99]) := by decide
theorem test_table_word : decodeTableWord 16 0x1141 = some (.sendByte 0x41) := by decide
/-- T-E11. -/
theorem test_response_words :
    rwOk 0x41 = 0x0041 ∧ rwFull = 0x0100 ∧ rwEmpty = 0x0200 ∧ rwInvalidInput = 0x0300 ∧ rwIllegal = 0xFF00 ∧
    lengthRw 3 = 0x0003 := by decide

/-! ## Small states -/

/-- A buffer of N = 4. -/
def buf (space : Space) (storage : Memory) (head tail : Nat) : RingBuffer :=
  { space := space, cap := 2, storage := storage, head := head, tail := tail, pushed := [], popped := [] }

/-- A driver after INIT with both requests pending, all buffers of N = 4 and empty. -/
def base : State :=
  { tx := buf .tx [] 0 0, rx := buf .rx [] 0 0, rb := buf .rb [] 0 0, fg := .idle, irqPc := .idle, prod := .idle,
    cons := .idle,
    hal := { txArmed := true, rxIrqEnabled := true, rxEnabled := true, configured := true, txRegEmpty := true,
             rxSample := some { data := 0x55, fe := false, ovr := false }, txLog := [], halLog := [],
             rxArrived := [{ data := 0x55, fe := false, ovr := false }] },
    gie := true, inited := true, lineData := [], rbPort := .prod, respLog := [], rxRead := [], draws := 0, agenda := [] }

/-- The same driver before INIT, interrupts off. -/
def fresh : State :=
  { base with inited := false, gie := false,
              hal := { base.hal with configured := false, rxSample := none, txArmed := false } }

def withTxBuffer (storage : Memory) (head tail : Nat) : State := { base with tx := buf .tx storage head tail }
def withRxBuffer (storage : Memory) (head tail : Nat) : State := { base with rx := buf .rx storage head tail }
def withRbBuffer (storage : Memory) (head tail : Nat) : State := { base with rb := buf .rb storage head tail }

/-- What a test looks at in a next state. -/
def seen {α : Type} (r : Result) (f : State → α) : Option α :=
  match r with
  | .next s => some (f s)
  | .fault _ => none
  | .refused _ => none

/-! ## Index arithmetic (T-A3, T-A9, T-A10, T-A12) -/

theorem test_length_wraps : residue 4 0 1 = 3 ∧ residue 10 1 9 = 2 ∧ residue 256 0 1 = 255 ∧ residue 3 2 0 = 2 := by
  decide
theorem test_advance_wraps : advance 4 3 = 0 ∧ advance 10 9 = 0 ∧ advance 256 255 = 0 ∧ advance 3 2 = 0 := by decide

/-! ## Operations: worked examples and vectors of the spec -/

/-- R111 worked example: N = 4, head = 3, tail = 1, RB_PUSH 0x7E. -/
theorem test_rb_push_wraps :
    seen (exec (.rbPush 0x7E) (withRbBuffer [(0, 0xA), (1, 0xB), (2, 0xC), (3, 0xD)] 3 1))
      (fun t => (t.rb.storage, t.rb.head, t.respLog))
      = some ([(0, 0xA), (1, 0xB), (2, 0xC), (3, 0x7E)], 0, [(.prod, 0x0000)]) := by decide
/-- T-S2. -/
theorem test_rb_push_full :
    seen (exec (.rbPush 0x04) (withRbBuffer [(0, 1), (1, 2), (2, 3)] 3 0)) (fun t => (t.rb.storage, t.rb.head, t.respLog))
      = some ([(0, 1), (1, 2), (2, 3)], 3, [(.prod, 0x0100)]) := by decide
/-- R112 worked example: head = 0, tail = 3, slot 3 = 0x55. -/
theorem test_rb_pop_wraps :
    seen (exec .rbPop (withRbBuffer [(3, 0x55)] 0 3)) (fun t => (t.rb.storage, t.rb.tail, t.respLog))
      = some ([(3, 0x55)], 0, [(.cons, 0x0055)]) := by decide
/-- T-D4: Empty is told from a zero byte by the status. -/
theorem test_rb_pop_empty_and_zero :
    seen (exec .rbPop (withRbBuffer [] 1 1)) (fun t => t.respLog) = some [(.cons, 0x0200)] ∧
    seen (exec .rbPop (withRbBuffer [(0, 0)] 1 0)) (fun t => t.respLog) = some [(.cons, 0x0000)] := by decide
/-- T-A5. -/
theorem test_rb_len_wraps :
    seen (exec .rbLen { withRbBuffer [] 0 3 with rbPort := .cons }) (fun t => t.respLog) = some [(.cons, 0x0001)] := by
  decide
/-- T-D13. -/
theorem test_init :
    seen (exec .init { fresh with tx := buf .tx [] 3 1 }) (fun t => (t.tx.head, t.hal.txArmed, t.hal.rxEnabled, t.inited))
      = some (0, false, true, true) ∧
    seen (exec .init fresh) (fun t => (t.hal.halLog, t.respLog))
      = some ([.configureLine, .setTxInterruptEnabled false], [(.fg, 0x0000)]) := by decide
/-- R142 worked example. -/
theorem test_send_byte :
    seen (exec (.sendByte 0x41) { base with hal := { base.hal with txArmed := false } })
      (fun t => (t.tx.storage, t.tx.head, t.hal.txArmed, t.respLog)) = some ([(0, 0x41)], 1, true, [(.fg, 0x0000)]) := by
  decide
/-- T-D9: a full buffer does not arm. -/
theorem test_send_byte_full_does_not_arm :
    seen (exec (.sendByte 0x64) { withTxBuffer [(0, 0x61), (1, 0x62), (2, 0x63)] 3 0 with
        hal := { base.hal with txArmed := false } }) (fun t => (t.tx.head, t.hal.txArmed, t.hal.halLog, t.respLog))
      = some (3, false, [], [(.fg, 0x0100)]) := by decide
/-- T-D10: the terminator is lost and the call still returns OK. -/
theorem test_send_line_overflow :
    seen (exec (.sendLine true) { base with lineData := [0x48, 0x49, 0x4A] })
      (fun t => ((t.tx.storage, t.tx.head), (t.hal.halLog.length, t.respLog)))
      = some (([(0, 0x48), (1, 0x49), (2, 0x4A)], 3), (3, [(.fg, 0x0000)])) := by decide
/-- T-D11: an empty line still sends CR, LF. -/
theorem test_send_line_empty :
    seen (exec (.sendLine true) base) (fun t => (t.tx.contents, t.tx.head)) = some ([0x0D, 0x0A], 2) := by decide
/-- T-D12 (N = 4 here): READ_BYTE wraps. -/
theorem test_read_byte :
    seen (exec .readByte (withRxBuffer [(0, 0x33), (3, 0x32)] 1 3)) (fun t => (t.rx.tail, t.respLog))
      = some (0, [(.fg, 0x0032)]) := by decide
theorem test_rx_len : seen (exec .rxLen (withRxBuffer [] 1 2)) (fun t => t.respLog) = some [(.fg, 0x0003)] := by decide
/-- T-D14, row 3: an overrun byte without framing error is pushed, and the reset cycle runs. -/
theorem test_irq_rx_overrun :
    seen (exec .irqRx { withRxBuffer [(0, 0x31)] 1 0 with hal := { base.hal with rxSample := some ⟨0x33, false, true⟩ } })
      (fun t => (t.rx.storage, t.rx.head, t.hal.rxSample, t.hal.rxEnabled, t.hal.halLog))
      = some ([(0, 0x31), (1, 0x33)], 2, none, true,
          [.queryFramingError, .queryOverrun, .readRxRegister, .rxDisable, .rxEnable]) := by decide
/-- T-D14, row 2 (T-S8): a byte with a framing error is discarded. -/
theorem test_irq_rx_framing_error :
    seen (exec .irqRx { withRxBuffer [(0, 0x31)] 1 0 with hal := { base.hal with rxSample := some ⟨0x33, true, false⟩ } })
      (fun t => (t.rx.storage, t.rx.head, t.hal.halLog))
      = some ([(0, 0x31)], 1, [.queryFramingError, .queryOverrun, .readRxRegister]) := by decide
/-- T-D15, row 2: the last byte is written and the interrupt masked in the same firing. -/
theorem test_irq_tx_last_byte :
    seen (exec .irqTx (withTxBuffer [(0, 0x41)] 1 0))
      (fun t => (t.hal.txLog, t.tx.tail, t.hal.txArmed, t.hal.txRegEmpty, t.hal.halLog))
      = some ([0x41], 1, false, false, [.writeTxRegister 0x41, .setTxInterruptEnabled false]) := by decide
/-- T-D15, rows 1 and 3 (T-S7). -/
theorem test_irq_tx_two_and_none :
    seen (exec .irqTx (withTxBuffer [(0, 0x41), (1, 0x42)] 2 0)) (fun t => (t.hal.txLog, t.hal.txArmed))
      = some ([0x41], true) ∧
    seen (exec .irqTx (withTxBuffer [] 2 2)) (fun t => (t.hal.txLog, t.hal.txArmed, t.hal.txRegEmpty))
      = some ([], false, true) := by decide
theorem test_write_tx_register :
    seen (exec (.writeTxRegister 0x0D) base) (fun t => (t.hal.txLog, t.hal.txRegEmpty)) = some ([0x0D], false) := by decide
theorem test_read_rx_register :
    seen (exec .readRxRegister base) (fun t => (t.hal.rxSample, t.respLog)) = some (none, [(.hal, 0x0055)]) := by decide
theorem test_set_tx_interrupt_enabled :
    seen (exec (.setTxInterruptEnabled false) base) (fun t => (t.hal.txArmed, t.hal.rxIrqEnabled)) = some (false, true) := by
  decide
theorem test_query_flags :
    seen (exec .queryFramingError { base with hal := { base.hal with rxSample := some ⟨0, true, false⟩ } })
      (fun t => t.respLog) = some [(.hal, 0x0001)] ∧
    seen (exec .queryOverrun { base with hal := { base.hal with rxSample := some ⟨0, true, false⟩ } })
      (fun t => t.respLog) = some [(.hal, 0x0000)] := by decide
theorem test_rx_disable :
    seen (exec .rxDisable base) (fun t => (t.hal.rxEnabled, t.hal.rxSample)) = some (false, none) := by decide
theorem test_rx_enable :
    seen (exec .rxEnable { base with hal := { base.hal with rxEnabled := false } }) (fun t => t.hal.rxEnabled)
      = some true := by decide
theorem test_configure_line :
    seen (exec .configureLine fresh) (fun t => (t.hal.configured, t.hal.txArmed)) = some (true, false) := by decide
theorem test_env_tx_ready :
    seen (exec .envTxReady { base with hal := { base.hal with txRegEmpty := false } }) (fun t => t.hal.txRegEmpty)
      = some true := by decide
/-- R200: a waiting sample is replaced. -/
theorem test_env_rx_arrive_replaces :
    seen (exec (.envRxArrive true false 0x32) base) (fun t => t.hal.rxSample) = some (some ⟨0x32, true, false⟩) := by
  decide
theorem test_host_gie : seen (exec (.hostGie false) base) (fun t => (t.gie, t.hal.txArmed)) = some (false, true) := by
  decide

/-! ## Steps and micro-steps -/

/-- T-D5, line 2: a byte stored and not yet published is not seen by the consumer. -/
theorem test_pop_before_publication :
    seen (step { withRbBuffer [(0, 0xAA)] 0 0 with prod := .push (.pu4 0xAA 0 0 1), cons := .pop (.po2 0),
                                                   agenda := [.micro .cons] }) (fun t => (t.respLog, t.rb.head))
      = some ([(.cons, 0x0200)], 0) := by decide
/-- T-D8, line 2: IRQ_TX between PU3 and PU4 does not see the byte and masks. -/
theorem test_irq_tx_between_store_and_publish :
    seen (step { withTxBuffer [(0, 0x7A)] 0 0 with fg := .sendByte (.push (.pu4 0x7A 0 0 1)),
                                                   agenda := [.word .irq .whole 0x2100 []] })
      (fun t => (t.hal.txArmed, t.hal.txLog, t.fg)) = some (false, [], .sendByte (.push (.pu4 0x7A 0 0 1))) := by decide
/-- T-D7, line 7: AR1 arms although TX is empty. -/
theorem test_ar1_arms_with_tx_empty :
    seen (step { withTxBuffer [] 2 2 with fg := .sendByte .ar1, hal := { base.hal with txArmed := false },
                                          agenda := [.micro .fg] }) (fun t => (t.hal.txArmed, t.fg, t.respLog))
      = some (true, .idle, [(.fg, 0x0000)]) := by decide
/-- T-E10 at a port. -/
theorem test_illegal_word_is_answered :
    seen (step { base with agenda := [.word .fg .whole 0x0201 []] }) (fun t => (t.respLog, t.rx.tail))
      = some ([(.fg, 0xFF00)], 0) := by decide
/-- R237: the foreground role of the wrong context, at a role port and in the interrupt context, is refused. -/
theorem test_wrong_context_is_refused :
    step { base with agenda := [.word .prod .whole 0x0200 []] } = .refused .wrongContext ∧
    step { base with agenda := [.word .irq .whole 0x1141 []] } = .refused .wrongContext := ⟨rfl, rfl⟩
/-- The host's question on one row: the word placed for the next step is the one performed. -/
theorem test_with_fetch_word :
    seen (step (base.withFetchWord 16 0x1141)) (fun t => (t.tx.storage, t.respLog)) = some ([(0, 0x41)], [(.fg, 0)]) := by
  decide

/-! ## Witnesses: each statement's hypotheses are met, clause by clause, at the edges of their ranges -/

/-- The driver of `base` with bytes 0x61, 0x62 in TX, its tail in the last slot. -/
def two : State :=
  { withTxBuffer [(0, 0x62), (3, 0x61)] 1 3 with hal := { base.hal with txRegEmpty := false } }

/-- A foreground, a producer and a consumer at given positions. -/
def fgAt (p : FgPos) : State := { base with fg := p }
/-- The driver of `base` with no request pending, and the same after it has sent the byte 0x41. -/
def quiet : State := { base with hal := { base.hal with txArmed := false, rxSample := none, rxArrived := [] } }
def sent : State :=
  { quiet with tx := { buf .tx [(0, 0x41)] 1 1 with pushed := [0x41], popped := [0x41] }
               hal := { quiet.hal with
                 txLog := [0x41], halLog := [.writeTxRegister 0x41, .setTxInterruptEnabled false] } }
def prodAt (p : ProdPos) : State := { base with prod := p }
def consAt (p : ConsPos) : State := { base with cons := p }

theorem witness_LegalWordIsTheWordOfItsOperation : ∃ w i, decode w = .ok i := ⟨0x4731, .envRxArrive true true 0x31, by decide⟩
/-- Two different rows, both with words of their own. -/
theorem witness_LegalWordsAreThoseOfTheTable :
    (∃ w : Word, ∃ r ∈ opcodeTable, r.covers w = true) ∧ (∃ w : Word, ∀ r ∈ opcodeTable, r.covers w = false) :=
  ⟨⟨0x48FF - 0xFE, ⟨"HOST_GIE", 0x4800, 0xFFFE⟩, by decide, by decide⟩, ⟨0x4802, by decide⟩⟩
theorem witness_IllegalWordIsAnsweredAndChangesNothing :
    (∃ cw : Word, ∀ r ∈ opcodeTable, r.covers cw = false) ∧
    (∃ (p : Port) (cw : Word), ∃ i, decode cw = .ok i ∧ p ≠ .irq ∧ p.format ≠ i.format) ∧
    (∃ (p : Port) (cw : Word), ∃ i, decode cw = .ok i ∧ p.accepts i = false ∧ p = .irq) ∧
    (∃ (p : Port) (cw : Word), ∃ i, decode cw = .ok i ∧ p.accepts i = false ∧ p.format = i.format ∧ p ≠ .irq) ∧
    (∃ (s : State) (p : Port) (m : WordMode) (cw : Word), s.agenda = [.word p m cw []]) :=
  ⟨⟨0x00FF, by decide⟩, ⟨.fg, 0x0200, .rbPop, by decide⟩, ⟨.irq, 0x1000, .init, by decide⟩,
    ⟨.cons, 0x0107, .rbPush 7, by decide⟩, ⟨{ base with agenda := [.word .fg .issue 0x00FF []] }, .fg, .issue, 0x00FF, rfl⟩⟩
theorem witness_StepPerformsTheDecodedOperation :
    (∃ (s : State) (p : Port) (cw : Word) (line : List Byte) (rest : List Turn) (i : Instr),
      s.agenda = .word p .whole cw line :: rest ∧ decode cw = .ok i ∧ p.accepts i = true) ∧
    (∃ (nbits w : Nat) (i : Instr), decodeTableWord nbits w = some i) :=
  ⟨⟨{ base with agenda := [.word .fg .whole 0x1201 [0x41]] }, .fg, 0x1201, [0x41], [], .sendLine true, rfl, by decide,
    by decide⟩, ⟨16, 0x4801, .hostGie true, by decide⟩⟩
theorem witness_StepFollowsTheSchedule :
    (∃ (s : State) (p : Port) (cw : Word) (line : List Byte) (rest : List Turn) (i : Instr),
      s.agenda = .word p .issue cw line :: rest ∧ decode cw = .ok i ∧ p.accepts i = true) ∧
    (∃ (s : State) (c : Context) (rest : List Turn), s.agenda = .micro c :: rest) ∧
    (∃ s : State, s.agenda = [] ∧ s.fg ≠ .idle) ∧
    (∃ s : State, s.agenda = [] ∧ s.fg = .idle ∧ s.prod ≠ .idle) ∧
    (∃ s : State, s.agenda = [] ∧ s.fg = .idle ∧ s.prod = .idle ∧ s.cons ≠ .idle) ∧
    (∃ s : State, s.agenda = [] ∧ s.fg = .idle ∧ s.prod = .idle ∧ s.cons = .idle) :=
  ⟨⟨{ base with agenda := [.word .cons .issue 0x0200 []] }, .cons, 0x0200, [], [], .rbPop, rfl, by decide, by decide⟩,
    ⟨{ base with agenda := [.micro .prod] }, .prod, [], rfl⟩,
    ⟨fgAt (.rxLen .ln1), by decide⟩, ⟨prodAt (.len .ln1), by decide⟩, ⟨consAt (.pop .po1), by decide⟩, ⟨base, by decide⟩⟩
theorem witness_InitResetsTheDriver : ∃ s : State, s.inited = false ∧ s.gie = false ∧ s.fg = .idle :=
  ⟨State.reset, rfl, rfl, rfl⟩
theorem witness_InitTwiceOrWithInterruptsOnIsRefused :
    (∃ s : State, s.inited = true) ∧ (∃ s : State, s.inited = false ∧ s.gie = true) :=
  ⟨⟨base, rfl⟩, ⟨{ fresh with gie := true }, by decide⟩⟩
theorem witness_DriverOperationsAreRefusedBeforeInit : ∃ s : State, s.inited = false := ⟨State.reset, rfl⟩
theorem witness_BusyContextTakesNoCommand :
    (∃ s : State, s.inited = true ∧ s.fg ≠ .idle) ∧ (∃ s : State, s.inited = false ∧ s.gie = false ∧ s.fg ≠ .idle) ∧
    (∃ s : State, s.prod ≠ .idle ∧ s.rbPort = .prod) ∧ (∃ s : State, s.cons ≠ .idle ∧ s.rbPort = .cons) :=
  ⟨⟨fgAt (.sendByte .ar1), by decide⟩, ⟨{ fresh with fg := .readByte .po1 }, by decide⟩, ⟨prodAt (.len .ln1), by decide⟩,
    ⟨{ consAt (.pop .po1) with rbPort := .cons }, by decide⟩⟩
theorem witness_WholeOperationsActOnTheContents :
    (∃ B : RingBuffer, B.head < B.n ∧ B.tail < B.n ∧ B.occ = B.n - 1 ∧ B.occ ≠ 0) ∧
    (∃ B : RingBuffer, B.head < B.n ∧ B.tail < B.n ∧ B.occ ≠ B.n - 1 ∧ B.occ = 0) :=
  ⟨⟨buf .tx [] 2 3, by decide⟩, ⟨buf .tx [] 3 3, by decide⟩⟩
theorem witness_OccupancyMovesByOne :
    (∃ (B : RingBuffer) (v : Byte), B.head < B.n ∧ B.tail < B.n ∧ (pushWhole v B).2 = .ok) ∧
    (∃ (B : RingBuffer) (b : Byte), B.head < B.n ∧ B.tail < B.n ∧ (popWhole B).2 = .some b) :=
  ⟨⟨buf .tx [] 3 3, 0, by decide⟩, ⟨buf .tx [(3, 9)] 0 3, 9, by decide⟩⟩
theorem witness_RbPushStoresAndAdvancesTheHead :
    (∃ s : State, s.prod = .idle ∧ s.rb.inRange = true ∧ advance s.rb.n s.rb.head = s.rb.tail) ∧
    (∃ s : State, s.prod = .idle ∧ s.rb.inRange = true ∧ advance s.rb.n s.rb.head ≠ s.rb.tail) :=
  ⟨⟨withRbBuffer [] 3 0, by decide⟩, ⟨withRbBuffer [] 3 3, by decide⟩⟩
theorem witness_RbPopReturnsTheOldestByte :
    (∃ s : State, s.cons = .idle ∧ s.rb.inRange = true ∧ s.rb.head = s.rb.tail) ∧
    (∃ s : State, s.cons = .idle ∧ s.rb.inRange = true ∧ s.rb.head ≠ s.rb.tail) :=
  ⟨⟨withRbBuffer [] 3 3, by decide⟩, ⟨withRbBuffer [(3, 1)] 0 3, by decide⟩⟩
theorem witness_RbLenReturnsTheLength :
    (∃ s : State, s.rb.inRange = true ∧ s.rbPort = .prod ∧ s.prod = .idle) ∧
    (∃ s : State, s.rb.inRange = true ∧ s.rbPort = .cons ∧ s.cons = .idle) :=
  ⟨⟨base, by decide⟩, ⟨{ base with rbPort := .cons }, by decide⟩⟩
theorem witness_PushMicroStepsStoreBeforePublishing :
    (∃ s : State, s.rb.inRange = true ∧ s.prod = .push (.pu1 7)) ∧
    (∃ s : State, s.rb.inRange = true ∧ 3 < s.rb.n ∧ s.prod = .push (.pu2 7 3) ∧ advance s.rb.n 3 = s.rb.tail) ∧
    (∃ s : State, s.rb.inRange = true ∧ 3 < s.rb.n ∧ s.prod = .push (.pu2 7 3) ∧ advance s.rb.n 3 ≠ s.rb.tail) ∧
    (∃ s : State, s.rb.inRange = true ∧ 3 < s.rb.n ∧ s.prod = .push (.pu3 7 3 1 0)) ∧
    (∃ s : State, s.rb.inRange = true ∧ 3 < s.rb.n ∧ s.prod = .push (.pu4 7 3 1 0)) ∧
    (∃ s : State, s.rbSound ∧ s.rb.contents = [0x11, 0x22]) :=
  ⟨⟨prodAt (.push (.pu1 7)), by decide⟩,
    ⟨{ withRbBuffer [] 3 0 with prod := .push (.pu2 7 3) }, by decide⟩,
    ⟨{ withRbBuffer [] 3 1 with prod := .push (.pu2 7 3) }, by decide⟩,
    ⟨{ withRbBuffer [] 3 1 with prod := .push (.pu3 7 3 1 0) }, by decide⟩,
    ⟨{ withRbBuffer [(3, 7)] 3 1 with prod := .push (.pu4 7 3 1 0) }, by decide⟩,
    ⟨{ base with rb := { buf .rb [(0, 0x22), (3, 0x11)] 1 3 with pushed := [0x11, 0x22] } }, by decide⟩⟩
theorem witness_PopMicroStepsReadBeforeFreeing :
    (∃ s : State, s.rb.inRange = true ∧ s.cons = .pop .po1) ∧
    (∃ s : State, s.rb.inRange = true ∧ 3 < s.rb.n ∧ s.cons = .pop (.po2 3) ∧ 3 = s.rb.tail) ∧
    (∃ s : State, s.rb.inRange = true ∧ 0 < s.rb.n ∧ s.cons = .pop (.po2 0) ∧ 0 ≠ s.rb.tail) ∧
    (∃ s : State, s.rb.inRange = true ∧ 3 < s.rb.n ∧ s.cons = .pop (.po3 0 3)) ∧
    (∃ s : State, s.rb.inRange = true ∧ 3 < s.rb.n ∧ s.cons = .pop (.po4 0 3 9)) :=
  ⟨⟨consAt (.pop .po1), by decide⟩,
    ⟨{ withRbBuffer [] 3 3 with cons := .pop (.po2 3) }, by decide⟩,
    ⟨{ withRbBuffer [(3, 9)] 0 3 with cons := .pop (.po2 0) }, by decide⟩,
    ⟨{ withRbBuffer [(3, 9)] 0 3 with cons := .pop (.po3 0 3) }, by decide⟩,
    ⟨{ withRbBuffer [(3, 9)] 0 3 with cons := .pop (.po4 0 3 9) }, by decide⟩⟩
/-- T-D5b: a consumer at LN2 with a stale head, the byte pushed meanwhile. -/
theorem witness_LengthIsConservativeForARoleHolder :
    (∃ (s : State) (h : Nat), s.rbSound ∧ s.cons = .len (.ln2 h) ∧ h ≠ s.rb.head) ∧
    (∃ (s : State) (h : Nat), s.rbSound ∧ s.prod = .len (.ln2 h)) :=
  ⟨⟨{ base with rb := { buf .rb [(0, 0x11), (1, 0x22)] 2 0 with pushed := [0x11, 0x22] }, cons := .len (.ln2 1) }, 1,
      by decide⟩,
    ⟨{ base with rb := { buf .rb [(3, 0x11)] 0 3 with pushed := [0x11] }, prod := .len (.ln2 0) }, 0, by decide⟩⟩
theorem witness_SendBytePushesAndArms :
    (∃ s : State, s.inited = true ∧ s.fg = .idle ∧ s.tx.inRange = true ∧ advance s.tx.n s.tx.head = s.tx.tail) ∧
    (∃ s : State, s.inited = true ∧ s.fg = .idle ∧ s.tx.inRange = true ∧ advance s.tx.n s.tx.head ≠ s.tx.tail) :=
  ⟨⟨withTxBuffer [] 3 0, by decide⟩, ⟨withTxBuffer [] 3 3, by decide⟩⟩
/-- By itself and inside a SEND_LINE. -/
theorem witness_SendByteMicroStepsArmLast :
    (∀ inside : SendPos → FgPos, inside = .sendByte ∨ (∃ stage rest, inside = fun p => .sendLine p stage rest) →
      (∃ s : State, s.tx.inRange = true ∧ s.fg = inside (.push (.pu1 7))) ∧
      (∃ s : State, s.tx.inRange = true ∧ 3 < s.tx.n ∧ s.fg = inside (.push (.pu2 7 3)) ∧ advance s.tx.n 3 ≠ s.tx.tail) ∧
      (∃ s : State, s.tx.inRange = true ∧ 3 < s.tx.n ∧ s.fg = inside (.push (.pu3 7 3 1 0))) ∧
      (∃ s : State, s.tx.inRange = true ∧ 3 < s.tx.n ∧ s.fg = inside (.push (.pu4 7 3 1 0)))) ∧
    (∃ s : State, s.tx.inRange = true ∧ 3 < s.tx.n ∧ s.fg = .sendByte (.push (.pu2 7 3)) ∧ advance s.tx.n 3 = s.tx.tail) ∧
    (∃ s : State, s.tx.inRange = true ∧ s.fg = .sendByte .ar1) :=
  ⟨fun inside _ =>
    ⟨⟨fgAt (inside (.push (.pu1 7))), rfl, rfl⟩,
      ⟨{ withTxBuffer [] 3 1 with fg := inside (.push (.pu2 7 3)) }, rfl, (by decide : 3 < 4), rfl,
        (by decide : advance 4 3 ≠ 1)⟩,
      ⟨{ withTxBuffer [] 3 1 with fg := inside (.push (.pu3 7 3 1 0)) }, rfl, (by decide : 3 < 4), rfl⟩,
      ⟨{ withTxBuffer [(3, 7)] 3 1 with fg := inside (.push (.pu4 7 3 1 0)) }, rfl, (by decide : 3 < 4), rfl⟩⟩,
    ⟨{ withTxBuffer [] 3 0 with fg := .sendByte (.push (.pu2 7 3)) }, by decide⟩, ⟨fgAt (.sendByte .ar1), by decide⟩⟩
theorem witness_SendLineWithoutHandleEnqueuesNothing : ∃ s : State, s.inited = true ∧ s.fg = .idle := ⟨base, by decide⟩
/-- With room for all, for some, and for none of the line with its terminator. -/
theorem witness_SendLineEnqueuesWhatFits :
    (∃ s : State, s.inited = true ∧ s.fg = .idle ∧ s.tx.inRange = true ∧ s.lineData.length + 2 ≤ s.tx.n - 1 - s.tx.occ) ∧
    (∃ s : State, s.inited = true ∧ s.fg = .idle ∧ s.tx.inRange = true ∧ s.tx.occ < s.tx.n - 1 ∧
      s.tx.n - 1 - s.tx.occ < s.lineData.length + 2) ∧
    (∃ s : State, s.inited = true ∧ s.fg = .idle ∧ s.tx.inRange = true ∧ s.tx.occ = s.tx.n - 1) :=
  ⟨⟨{ base with lineData := [0x41] }, by decide⟩, ⟨{ withTxBuffer [(3, 1)] 0 3 with lineData := [0x41] }, by decide⟩,
    ⟨withTxBuffer [] 2 3, by decide⟩⟩
/-- SL0 with and without bytes; AR1 and a full PU2 at a stage with and without bytes left. -/
theorem witness_SendLineEnqueuesWhatFits_micro_steps :
    (∃ s : State, s.tx.inRange = true ∧ s.fg = .sl0 true [1, 2]) ∧
    (∃ s : State, s.tx.inRange = true ∧ s.fg = .sl0 true []) ∧
    (∀ (stage : Stage) (rest : List Byte), ∃ s : State, s.tx.inRange = true ∧ s.fg = .sendLine .ar1 stage rest) ∧
    (∀ (stage : Stage) (rest : List Byte), ∃ s : State, s.tx.inRange = true ∧ 3 < s.tx.n ∧
      s.fg = .sendLine (.push (.pu2 7 3)) stage rest ∧ advance s.tx.n 3 = s.tx.tail) :=
  ⟨⟨fgAt (.sl0 true [1, 2]), by decide⟩, ⟨fgAt (.sl0 true []), by decide⟩,
    fun stage rest => ⟨fgAt (.sendLine .ar1 stage rest), rfl, rfl⟩,
    fun stage rest => ⟨{ withTxBuffer [] 3 0 with fg := .sendLine (.push (.pu2 7 3)) stage rest }, rfl,
      (by decide : 3 < 4), rfl, (by decide : advance 4 3 = 0)⟩⟩
theorem witness_ReadByteReturnsTheOldestByte :
    (∃ s : State, s.inited = true ∧ s.fg = .idle ∧ s.rx.inRange = true ∧ s.rx.head = s.rx.tail) ∧
    (∃ s : State, s.inited = true ∧ s.fg = .idle ∧ s.rx.inRange = true ∧ s.rx.head ≠ s.rx.tail) ∧
    (∃ s : State, s.rx.inRange = true ∧ s.fg = .readByte .po1) ∧
    (∃ s : State, s.rx.inRange = true ∧ 3 < s.rx.n ∧ s.fg = .readByte (.po2 3) ∧ 3 = s.rx.tail ∧ s.rx.head ≠ 3) ∧
    (∃ s : State, s.rx.inRange = true ∧ 0 < s.rx.n ∧ s.fg = .readByte (.po2 0) ∧ 0 ≠ s.rx.tail) ∧
    (∃ s : State, s.rx.inRange = true ∧ 3 < s.rx.n ∧ s.fg = .readByte (.po3 0 3)) ∧
    (∃ s : State, s.rx.inRange = true ∧ 3 < s.rx.n ∧ s.fg = .readByte (.po4 0 3 9)) :=
  ⟨⟨withRxBuffer [] 3 3, by decide⟩, ⟨withRxBuffer [(3, 1)] 0 3, by decide⟩,
    ⟨{ withRxBuffer [] 3 3 with fg := .readByte .po1 }, by decide⟩,
    ⟨{ withRxBuffer [(3, 9)] 0 3 with fg := .readByte (.po2 3) }, by decide⟩,
    ⟨{ withRxBuffer [(3, 9)] 0 3 with fg := .readByte (.po2 0) }, by decide⟩,
    ⟨{ withRxBuffer [(3, 9)] 0 3 with fg := .readByte (.po3 0 3) }, by decide⟩,
    ⟨{ withRxBuffer [(3, 9)] 0 3 with fg := .readByte (.po4 0 3 9) }, by decide⟩⟩
theorem witness_RxLenReturnsTheOccupancy :
    (∃ s : State, s.inited = true ∧ s.fg = .idle ∧ s.rx.inRange = true) ∧
    (∃ s : State, s.rx.inRange = true ∧ s.fg = .rxLen .ln1) ∧
    (∃ s : State, s.rx.inRange = true ∧ 1 < s.rx.n ∧ s.fg = .rxLen (.ln2 1)) :=
  ⟨⟨withRxBuffer [] 2 3, by decide⟩, ⟨{ withRxBuffer [] 2 3 with fg := .rxLen .ln1 }, by decide⟩,
    ⟨{ withRxBuffer [] 2 3 with fg := .rxLen (.ln2 1) }, by decide⟩⟩
theorem witness_AsManyReadsAsTheLengthReturnBytes :
    ∃ (s : State) (k : Nat), s.inited = true ∧ s.fg = .idle ∧ s.rx.inRange = true ∧ k ≤ s.rx.occ ∧ k = s.rx.n - 1 :=
  ⟨withRxBuffer [] 2 3, 3, by decide⟩
theorem witness_WholeOperationIsItsMicroSteps :
    (∃ t, exec (.sendByte 7) base = .next t) ∧ (∃ t, exec (.sendLine true) base = .next t) ∧
    (∃ t, exec (.sendLine false) base = .next t) ∧ (∃ t, exec .readByte base = .next t) ∧
    (∃ t, exec .rxLen base = .next t) ∧ (∃ t, exec (.rbPush 7) base = .next t) ∧ (∃ t, exec .rbPop base = .next t) ∧
    (∃ t, exec .rbLen base = .next t) ∧ (∃ t, exec .rbLen { base with rbPort := .cons } = .next t) :=
  ⟨⟨_, rfl⟩, ⟨_, rfl⟩, ⟨_, rfl⟩, ⟨_, rfl⟩, ⟨_, rfl⟩, ⟨_, rfl⟩, ⟨_, rfl⟩, ⟨_, rfl⟩, ⟨_, rfl⟩⟩
theorem witness_ForegroundMicroStepIsAlwaysEnabled : ∃ s : State, s.driverSound ∧ s.fg ≠ .idle :=
  ⟨fgAt (.sendByte (.push (.pu2 7 0))), by decide⟩
theorem witness_IrqRxReadsAndPushesTheSample :
    ∀ f o : Bool,
      (∃ s : State, s.inited = true ∧ s.gie = true ∧ s.hal.rxIrqEnabled = true ∧ s.hal.rxEnabled = true ∧
        s.hal.rxSample = some ⟨9, f, o⟩ ∧ s.rx.inRange = true ∧ advance s.rx.n s.rx.head = s.rx.tail) ∧
      (∃ s : State, s.inited = true ∧ s.gie = true ∧ s.hal.rxIrqEnabled = true ∧ s.hal.rxEnabled = true ∧
        s.hal.rxSample = some ⟨9, f, o⟩ ∧ s.rx.inRange = true ∧ advance s.rx.n s.rx.head ≠ s.rx.tail) := fun f o =>
  ⟨⟨{ withRxBuffer [] 3 0 with hal := { base.hal with rxSample := some ⟨9, f, o⟩ } }, rfl, rfl, rfl, rfl, rfl, rfl,
      by decide +revert⟩,
    ⟨{ withRxBuffer [] 3 3 with hal := { base.hal with rxSample := some ⟨9, f, o⟩ } }, rfl, rfl, rfl, rfl, rfl, rfl,
      by decide +revert⟩⟩
theorem witness_IrqTxWritesOneByteOrMasks :
    (∃ s : State, s.inited = true ∧ s.gie = true ∧ s.hal.txArmed = true ∧ s.hal.txRegEmpty = true ∧
      s.tx.inRange = true ∧ s.tx.head = s.tx.tail) ∧
    (∃ s : State, s.inited = true ∧ s.gie = true ∧ s.hal.txArmed = true ∧ s.hal.txRegEmpty = true ∧
      s.tx.inRange = true ∧ s.tx.head ≠ s.tx.tail ∧ advance s.tx.n s.tx.tail = s.tx.head) ∧
    (∃ s : State, s.inited = true ∧ s.gie = true ∧ s.hal.txArmed = true ∧ s.hal.txRegEmpty = true ∧
      s.tx.inRange = true ∧ s.tx.head ≠ s.tx.tail ∧ advance s.tx.n s.tx.tail ≠ s.tx.head) :=
  ⟨⟨base, by decide⟩, ⟨withTxBuffer [(3, 1)] 0 3, by decide⟩, ⟨withTxBuffer [(0, 2), (3, 1)] 1 3, by decide⟩⟩
theorem witness_HandlersAreTakenOnlyWhenEnabled :
    (∃ t, exec .irqRx base = .next t) ∧ (∃ t, exec .irqTx base = .next t) ∧
    (∃ s : State, s.inited = true ∧ s.gie = false) ∧ (∃ s : State, s.inited = true ∧ s.hal.reqRx = false) ∧
    (∃ s : State, s.inited = true ∧ s.hal.reqTx = false) :=
  ⟨⟨_, rfl⟩, ⟨_, rfl⟩, ⟨{ base with gie := false }, by decide⟩,
    ⟨{ base with hal := { base.hal with rxSample := none } }, by decide⟩,
    ⟨{ base with hal := { base.hal with txRegEmpty := false } }, by decide⟩⟩
theorem witness_HandlersKeepTheForegroundPosition :
    (∃ s t : State, s.fg = .sendByte .ar1 ∧ exec .irqRx s = .next t) ∧
    (∃ s t : State, s.fg = .sendByte .ar1 ∧ exec .irqTx s = .next t) :=
  ⟨⟨fgAt (.sendByte .ar1), _, rfl, rfl⟩, ⟨fgAt (.sendByte .ar1), _, rfl, rfl⟩⟩
theorem witness_EachFiringWithdrawsItsRequest :
    (∃ s t : State, exec .irqRx s = .next t) ∧ (∃ s t : State, exec .irqTx s = .next t) :=
  ⟨⟨base, _, rfl⟩, ⟨base, _, rfl⟩⟩
/-- T-D17. -/
theorem witness_HandlerOrdersReachTheSameState :
    ∃ s : State, s.inited = true ∧ s.gie = true ∧ s.hal.reqRx = true ∧ s.hal.reqTx = true ∧ s.rx.inRange = true ∧
      s.tx.inRange = true ∧ s.tx.occ = 1 := ⟨withTxBuffer [(0, 0x41)] 1 0, by decide⟩
theorem witness_ArmingStateMovesAsTheTableSays :
    (∃ s t : State, exec (.sendByte 7) s = .next t) ∧ (∃ s t : State, exec (.sendLine true) s = .next t) ∧
    (∃ s t : State, exec .irqTx s = .next t) ∧ (∃ s t : State, exec .init s = .next t) ∧
    (∃ s t : State, exec (.setTxInterruptEnabled true) s = .next t) ∧ (∃ s t : State, exec .irqRx s = .next t) ∧
    (∃ s t : State, s.fg.atAr1 = true ∧ fgTurn s = .next t) ∧ (∃ s t : State, s.fg.atAr1 = false ∧ fgTurn s = .next t) :=
  ⟨⟨base, _, rfl⟩, ⟨base, _, rfl⟩, ⟨base, _, rfl⟩, ⟨fresh, _, rfl⟩, ⟨base, _, rfl⟩, ⟨base, _, rfl⟩,
    ⟨fgAt (.sendByte .ar1), _, rfl, rfl⟩, ⟨fgAt (.readByte .po1), _, rfl, rfl⟩⟩
theorem witness_TransmitRegisterIsWrittenOnlyWhenReady :
    ∃ s t : State, step s = .next t ∧ t.hal.txLog ≠ s.hal.txLog :=
  ⟨{ withTxBuffer [(0, 0x41)] 1 0 with agenda := [.word .irq .whole 0x2100 []] }, _, rfl, by decide⟩
theorem witness_DrainingSendsTheWholeBuffer :
    ∃ s : State, s.inited = true ∧ s.gie = true ∧ s.hal.configured = true ∧ s.hal.txRegEmpty = false ∧
      s.hal.txArmed = true ∧ s.tx.inRange = true ∧ s.tx.head ≠ s.tx.tail ∧ s.tx.occ = 2 := ⟨two, by decide⟩
/-- A run that sends one byte: IRQ_TX, ENV_TX_READY, then HOST_GIE for ever. -/
def sendingState : Nat → State
  | 0 => { quiet with tx := { buf .tx [(0, 0x41)] 1 0 with pushed := [0x41] }
                      hal := { quiet.hal with txArmed := true, txRegEmpty := true } }
  | 1 => { sent with hal := { sent.hal with txRegEmpty := false } }
  | _ => sent
def sendingTurn : Nat → Turn
  | 0 => .word .irq .whole 0x2100 []
  | 1 => .word .env .whole 0x4000 []
  | _ => .word .host .whole 0x4801 []
theorem sending_is_a_run : IsRun sendingState sendingTurn
  | 0 => rfl
  | 1 => rfl
  | _ + 2 => rfl
theorem sending_is_fair (i : Instr) (h : ∀ t, exec i sent ≠ .next t) : WeaklyFair i sendingState sendingTurn :=
  fun n hn => absurd (hn (n + 2) (by omega)) (fun ⟨t, ht⟩ => h t ht)
theorem witness_PushedBytesAreEventuallySent :
    IsRun sendingState sendingTurn ∧ (∀ k, (sendingTurn k).ofStepRelation = true) ∧ (sendingState 0).driverSound ∧
    (sendingState 0).inited = true ∧ (∀ k, (sendingState k).gie = true) ∧
    WeaklyFair .envTxReady sendingState sendingTurn ∧ WeaklyFair .irqTx sendingState sendingTurn ∧
    (sendingState 0).fg.atAr1 = false ∧ (sendingState 0).tx.pushed ≠ [] ∧
    WeaklyFairForeground sendingState sendingTurn :=
  ⟨sending_is_a_run, fun | 0 => rfl | 1 => rfl | _ + 2 => rfl, by decide, rfl, fun | 0 => rfl | 1 => rfl | _ + 2 => rfl,
    sending_is_fair .envTxReady (fun _ h => nomatch h), sending_is_fair .irqTx (fun _ h => nomatch h), rfl, by decide,
    fun n hn => absurd (hn (n + 2) (by omega)) (fun ⟨_, ht⟩ => nomatch ht)⟩
theorem witness_WriteTxRegisterLogsTheByte :
    (∃ s : State, s.hal.txRegEmpty = true) ∧ (∃ s : State, s.hal.txRegEmpty = false) := ⟨⟨base, rfl⟩, ⟨two, rfl⟩⟩
theorem witness_ReadRxRegisterConsumesTheSample : ∃ (s : State) (x : Sample), s.hal.rxSample = some x := ⟨base, _, rfl⟩
theorem witness_FlagQueriesReturnTheSampleFlags :
    ∀ f o : Bool, ∃ (s : State) (x : Sample), s.hal.rxSample = some x ∧ x.fe = f ∧ x.ovr = o := fun f o =>
  ⟨{ base with hal := { base.hal with rxSample := some ⟨9, f, o⟩ } }, _, rfl, rfl, rfl⟩
theorem witness_EmptyReceiveRegisterReadsAFreeValue : ∃ s : State, s.hal.rxSample = none := ⟨State.reset, rfl⟩
theorem witness_EnvTxReadyMakesTheRegisterReady :
    (∃ s : State, s.hal.configured = true ∧ s.hal.txRegEmpty = false) ∧ (∃ s : State, s.hal.configured = false) ∧
    (∃ s : State, s.hal.configured = true ∧ s.hal.txRegEmpty = true) := ⟨⟨two, by decide⟩, ⟨fresh, rfl⟩, ⟨base, by decide⟩⟩
theorem witness_EnvRxArrivePutsTheSample :
    (∃ s : State, s.hal.configured = true ∧ s.hal.rxEnabled = true) ∧ (∃ s : State, s.hal.configured = false) ∧
    (∃ s : State, s.hal.configured = true ∧ s.hal.rxEnabled = false) :=
  ⟨⟨base, by decide⟩, ⟨fresh, rfl⟩, ⟨{ base with hal := { base.hal with rxEnabled := false } }, by decide⟩⟩
theorem witness_OnlyHostGieChangesTheGlobalEnable : ∃ s t : State, step s = .next t ∧ t.gie ≠ s.gie :=
  ⟨{ base with agenda := [.word .host .whole 0x4800 []] }, _, rfl, by decide⟩
theorem witness_EachIndexHasOneWriter :
    (∃ s t : State, fgTurn s = .next t ∧ t.tx ≠ s.tx) ∧ (∃ s t : State, prodTurn s = .next t ∧ t.rb ≠ s.rb) ∧
    (∃ s t : State, consTurn s = .next t ∧ t.rb ≠ s.rb) ∧ (∃ s t : State, exec .irqRx s = .next t ∧ t.rx ≠ s.rx) ∧
    (∃ s t : State, exec .irqTx s = .next t ∧ t.tx ≠ s.tx) :=
  ⟨⟨fgAt (.sendByte (.push (.pu3 7 0 0 1))), _, rfl, by decide⟩, ⟨prodAt (.push (.pu4 7 0 0 1)), _, rfl, by decide⟩,
    ⟨consAt (.pop (.po4 0 3 7)), _, rfl, by decide⟩, ⟨base, _, rfl, by decide⟩,
    ⟨withTxBuffer [(3, 7)] 0 3, _, rfl, by decide⟩⟩
/-- One storing operation on each buffer, at a slot that is not the head. -/
theorem witness_OperationsStoreOnlyAtTheHead :
    (∃ s t : State, exec (.rbPush 7) s = .next t ∧ 1 ≠ s.rb.head) ∧
    (∃ s t : State, exec (.sendByte 7) s = .next t ∧ 1 ≠ s.tx.head) ∧
    (∃ s t : State, exec .irqRx s = .next t ∧ 1 ≠ s.rx.head) ∧ (∃ s t : State, exec .readByte s = .next t) :=
  ⟨⟨base, _, rfl, by decide⟩, ⟨base, _, rfl, by decide⟩, ⟨base, _, rfl, by decide⟩, ⟨base, _, rfl⟩⟩
theorem witness_steps_that_answer_next :
    (∃ s t : State, step s = .next t ∧ t.tx ≠ s.tx) ∧ (∃ s t : State, step s = .next t ∧ t.respLog ≠ s.respLog) :=
  ⟨⟨{ base with agenda := [.word .fg .whole 0x1107 []] }, _, rfl, by decide⟩,
    ⟨{ base with agenda := [.word .fg .whole 0xFFFF []] }, _, rfl, by decide⟩⟩
theorem witness_CapacitiesNeverChange : ∃ s t : State, step s = .next t :=
  ⟨{ fresh with agenda := [.word .fg .whole 0x1000 []] }, _, rfl⟩
theorem witness_ObservationsOnlyGrow : ∃ s t : State, step s = .next t ∧ t.hal.halLog ≠ s.hal.halLog :=
  ⟨{ base with agenda := [.word .irq .whole 0x2000 []] }, _, rfl, by decide⟩
theorem witness_StoragesStayCanonical :
    ∃ s t : State, s.tx.storage.wf ∧ s.rx.storage.wf ∧ s.rb.storage.wf ∧ step s = .next t ∧
      t.rb.storage ≠ s.rb.storage :=
  ⟨{ withRbBuffer [(1, 1), (2, 2)] 3 1 with agenda := [.word .prod .whole 0x0109 []] }, _, by decide, by decide,
    by decide, rfl, by decide⟩
/-- T-D5: the producer at PU4, the consumer at PO2 with a stale head. -/
theorem witness_StandAloneBufferStaysFifo : ∃ s t : State, s.rbSound ∧ step s = .next t ∧ t.rb ≠ s.rb :=
  ⟨{ base with rb := buf .rb [(3, 0xAA)] 3 3, prod := .push (.pu4 0xAA 3 3 0), cons := .pop (.po2 3),
               agenda := [.micro .prod] }, _, by decide, rfl, by decide⟩
/-- P4, line 4: IRQ_TX between PU4 and AR1. -/
theorem witness_DriverStaysSound :
    (∃ s t : State, s.driverSound ∧ s.inited = true ∧ step s = .next t ∧ t.tx ≠ s.tx) ∧
    (∃ s t : State, s.driverSound ∧ s.inited = false ∧ step s = .next t ∧ t.inited = true) :=
  ⟨⟨{ base with
        tx := { buf .tx [(0, 0x61), (1, 0x62)] 2 0 with pushed := [0x61, 0x62] }
        fg := .sendByte .ar1
        agenda := [.word .irq .whole 0x2100 []] }, _, by decide, rfl, rfl, by decide⟩,
    ⟨{ fresh with agenda := [.word .fg .whole 0x1000 []] }, _, by decide, rfl, rfl, rfl⟩⟩
theorem witness_SoundStatesNeverFault : ∃ s : State, s.rbSound ∧ s.driverSound ∧ s.agenda ≠ [] :=
  ⟨{ fgAt (.readByte (.po2 0)) with agenda := [.micro .fg] }, by decide, by decide, by decide⟩

end Sys2Proof.Tests
end

section
/-! The ghosts influence nothing (R9, R32, log 14).  `eraseGhosts` is pushed through the reads and the named updates of
a state; each meaning is then shown to give, ghosts apart, the same answer from the erased state as from the state. -/

namespace Sys2Proof.Machine

/-! ## Erasing the ghosts of a buffer -/

section buffer
variable (B : RingBuffer)

@[simp] theorem RingBuffer.eraseGhosts_head : B.eraseGhosts.head = B.head := rfl
@[simp] theorem RingBuffer.eraseGhosts_tail : B.eraseGhosts.tail = B.tail := rfl
@[simp] theorem RingBuffer.eraseGhosts_n : B.eraseGhosts.n = B.n := rfl
@[simp] theorem RingBuffer.eraseGhosts_eraseGhosts : B.eraseGhosts.eraseGhosts = B.eraseGhosts := rfl
@[simp] theorem RingBuffer.pushed1_eraseGhosts (v : Byte) :
    (B.eraseGhosts.pushed1 v).eraseGhosts = (B.pushed1 v).eraseGhosts := rfl

end buffer

/-! ## Erasing the ghosts of the collaborator -/

/-- The collaborator without its ghosts, as `State.eraseGhosts` leaves it. -/
def Collaborator.eraseGhosts (c : Collaborator) : Collaborator :=
  { c with txLog := [], halLog := [], rxArrived := [] }

@[simp] theorem Collaborator.eraseGhosts_rxSample (c : Collaborator) : c.eraseGhosts.rxSample = c.rxSample := rfl

/-! ## Erasing the ghosts of a state: the fields that are read, and the named updates -/

section state
variable (s : State)

@[simp] theorem State.eraseGhosts_tx : s.eraseGhosts.tx = s.tx.eraseGhosts := rfl
@[simp] theorem State.eraseGhosts_rx : s.eraseGhosts.rx = s.rx.eraseGhosts := rfl
@[simp] theorem State.eraseGhosts_rb : s.eraseGhosts.rb = s.rb.eraseGhosts := rfl
@[simp] theorem State.eraseGhosts_hal : s.eraseGhosts.hal = s.hal.eraseGhosts := rfl
@[simp] theorem State.eraseGhosts_fg : s.eraseGhosts.fg = s.fg := rfl
@[simp] theorem State.eraseGhosts_prod : s.eraseGhosts.prod = s.prod := rfl
@[simp] theorem State.eraseGhosts_cons : s.eraseGhosts.cons = s.cons := rfl
@[simp] theorem State.eraseGhosts_gie : s.eraseGhosts.gie = s.gie := rfl
@[simp] theorem State.eraseGhosts_rbPort : s.eraseGhosts.rbPort = s.rbPort := rfl
@[simp] theorem State.eraseGhosts_agenda : s.eraseGhosts.agenda = s.agenda := rfl
@[simp] theorem State.eraseGhosts_eraseGhosts : s.eraseGhosts.eraseGhosts = s.eraseGhosts := rfl

@[simp] theorem State.withTx_eraseGhosts (B : RingBuffer) :
    (s.withTx B).eraseGhosts = s.eraseGhosts.withTx B.eraseGhosts := rfl
@[simp] theorem State.withRx_eraseGhosts (B : RingBuffer) :
    (s.withRx B).eraseGhosts = s.eraseGhosts.withRx B.eraseGhosts := rfl
@[simp] theorem State.withRb_eraseGhosts (B : RingBuffer) :
    (s.withRb B).eraseGhosts = s.eraseGhosts.withRb B.eraseGhosts := rfl
@[simp] theorem State.withFg_eraseGhosts (p : FgPos) : (s.withFg p).eraseGhosts = s.eraseGhosts.withFg p := rfl
@[simp] theorem State.withProd_eraseGhosts (p : ProdPos) : (s.withProd p).eraseGhosts = s.eraseGhosts.withProd p := rfl
@[simp] theorem State.withCons_eraseGhosts (p : ConsPos) : (s.withCons p).eraseGhosts = s.eraseGhosts.withCons p := rfl
@[simp] theorem State.answer_eraseGhosts (p : Port) (rw : Word) : (s.answer p rw).eraseGhosts = s.eraseGhosts := rfl

theorem present_eraseGhosts (p : Port) (line : List Byte) :
    present p line s.eraseGhosts = (present p line s).eraseGhosts := rfl
theorem State.restAgenda_eraseGhosts : s.eraseGhosts.restAgenda = s.restAgenda.eraseGhosts := rfl

end state

/-! ## Functions of a buffer or a state that ignore the ghosts -/

/-- A function of a buffer returns the same result whatever the ghosts, and leaves the same buffer apart from them. -/
def BufferIgnoresGhosts {α : Type} (f : RingBuffer → RingBuffer × α) : Prop :=
  ∀ B, ∃ B₁ B₂ r, f B = (B₁, r) ∧ f B.eraseGhosts = (B₂, r) ∧ B₂.eraseGhosts = B₁.eraseGhosts

/-- Ghosts apart, the update gives the same state from a state as from the state with its ghosts erased. -/
def IgnoresGhosts (f : State → State) : Prop := ∀ s, (f s.eraseGhosts).eraseGhosts = (f s).eraseGhosts

/-- The same of a read, whose value does not depend on the ghosts either. -/
def ReadIgnoresGhosts {α : Type} (f : State → α × State) : Prop :=
  ∀ s, (f s.eraseGhosts).1 = (f s).1 ∧ (f s.eraseGhosts).2.eraseGhosts = (f s).2.eraseGhosts

/-- The same of a meaning: its outcome is of the same kind, with the same next state apart from ghosts. -/
def OutcomeIgnoresGhosts (m : State → Result) : Prop := ∀ s, eraseOutcome (m s.eraseGhosts) = eraseOutcome (m s)

/-- An update that ignores the ghosts takes states equal apart from ghosts to such states. -/
theorem IgnoresGhosts.congr {f : State → State} (hf : IgnoresGhosts f) {s t : State}
    (h : s.eraseGhosts = t.eraseGhosts) : (f s).eraseGhosts = (f t).eraseGhosts := by
  rw [← hf s, h, hf t]

theorem IgnoresGhosts.comp {f g : State → State} (hg : IgnoresGhosts g) (hf : IgnoresGhosts f) :
    IgnoresGhosts (fun s => g (f s)) := fun s => hg.congr (hf s)

/-- A read, and then an update that uses the value read. -/
theorem ReadIgnoresGhosts.bind {α : Type} {f : State → α × State} {g : α → State → State}
    (hf : ReadIgnoresGhosts f) (hg : ∀ v, IgnoresGhosts (g v)) :
    IgnoresGhosts (fun s => g (f s).1 (f s).2) := fun s => by
  obtain ⟨hval, hstate⟩ := hf s
  show (g (f s.eraseGhosts).1 (f s.eraseGhosts).2).eraseGhosts = (g (f s).1 (f s).2).eraseGhosts
  rw [hval]
  exact (hg (f s).1).congr hstate

theorem IgnoresGhosts.next {f : State → State} (hf : IgnoresGhosts f) :
    OutcomeIgnoresGhosts (fun s => .next (f s)) := fun s => congrArg Host.Outcome.next (hf s)

theorem fault_ignoresGhosts (e : Fault) : OutcomeIgnoresGhosts (fun _ => .fault e) := fun _ => rfl

theorem refused_ignoresGhosts (e : Refusal) : OutcomeIgnoresGhosts (fun _ => .refused e) := fun _ => rfl

/-- A guard that does not read a ghost, over meanings that ignore the ghosts. -/
theorem OutcomeIgnoresGhosts.ite {c : State → Prop} [∀ s, Decidable (c s)] {m m' : State → Result}
    (hc : ∀ s, c s.eraseGhosts ↔ c s) (hm : OutcomeIgnoresGhosts m) (hm' : OutcomeIgnoresGhosts m') :
    OutcomeIgnoresGhosts (fun s => if c s then m s else m' s) := fun s => by
  by_cases h : c s
  · simpa [hc, h] using hm s
  · simpa [hc, h] using hm' s

/-- Erasing the ghosts between an outcome and a run that ignores them makes no difference, ghosts apart. -/
theorem IgnoresGhosts.andThen_eraseOutcome {run : State → State} (hrun : IgnoresGhosts run) (r : Result) :
    eraseOutcome (andThen (eraseOutcome r) run) = eraseOutcome (andThen r run) := by
  cases r with
  | next s => exact congrArg Host.Outcome.next (hrun s)
  | fault e => rfl
  | refused e => rfl

theorem OutcomeIgnoresGhosts.andThen {m : State → Result} {run : State → State} (hm : OutcomeIgnoresGhosts m)
    (hrun : IgnoresGhosts run) : OutcomeIgnoresGhosts (fun s => andThen (m s) run) := fun s => by
  show eraseOutcome (Machine.andThen (m s.eraseGhosts) run) = eraseOutcome (Machine.andThen (m s) run)
  rw [← hrun.andThen_eraseOutcome, hm s, hrun.andThen_eraseOutcome]

/-! ## The collaborator's primitives, and the other one-step updates -/

theorem answer_ignoresGhosts (p : Port) (rw : Word) : IgnoresGhosts (fun s => s.answer p rw) := fun _ => rfl
theorem halWriteTxRegister_ignoresGhosts (v : Byte) : IgnoresGhosts (halWriteTxRegister v) := fun _ => rfl
theorem halSetTxInterruptEnabled_ignoresGhosts (b : Bool) : IgnoresGhosts (halSetTxInterruptEnabled b) := fun _ => rfl
theorem halRxDisable_ignoresGhosts : IgnoresGhosts halRxDisable := fun _ => rfl
theorem halRxEnable_ignoresGhosts : IgnoresGhosts halRxEnable := fun _ => rfl
theorem halConfigureLine_ignoresGhosts : IgnoresGhosts halConfigureLine := fun _ => rfl
theorem initBody_ignoresGhosts : IgnoresGhosts initBody := fun _ => rfl

/-- With no sample waiting the byte is a draw, and the draw counter is no ghost (R192, log 10). -/
theorem halReadRxRegister_ignoresGhosts : ReadIgnoresGhosts halReadRxRegister := fun s => by
  unfold halReadRxRegister
  rw [State.eraseGhosts_hal, Collaborator.eraseGhosts_rxSample]
  cases s.hal.rxSample <;> exact ⟨rfl, rfl⟩

theorem halQueryFramingError_ignoresGhosts : ReadIgnoresGhosts halQueryFramingError := fun s => by
  unfold halQueryFramingError
  rw [State.eraseGhosts_hal, Collaborator.eraseGhosts_rxSample]
  cases s.hal.rxSample <;> exact ⟨rfl, rfl⟩

theorem halQueryOverrun_ignoresGhosts : ReadIgnoresGhosts halQueryOverrun := fun s => by
  unfold halQueryOverrun
  rw [State.eraseGhosts_hal, Collaborator.eraseGhosts_rxSample]
  cases s.hal.rxSample <;> exact ⟨rfl, rfl⟩

/-! ## Micro-steps ignore the ghosts -/

/-- A micro-step of a push answers the same whatever the ghosts, and leaves the same buffer apart from them (R111). -/
theorem pushMicro_ignoresGhosts (p : PushPos) : BufferIgnoresGhosts (pushMicro p) := fun B => by
  cases p with
  | pu1 v => exact ⟨_, _, _, rfl, rfl, rfl⟩
  | pu2 v h =>
    by_cases hfull : advance B.n h = B.tail
    · exact ⟨B, B.eraseGhosts, _, if_pos hfull, if_pos hfull, rfl⟩
    · exact ⟨B, B.eraseGhosts, _, if_neg hfull, if_neg hfull, rfl⟩
  | pu3 v h t next => exact ⟨_, _, _, rfl, rfl, rfl⟩
  | pu4 v h t next => exact ⟨_, _, _, rfl, rfl, rfl⟩

/-- The same of a pop (R112). -/
theorem popMicro_ignoresGhosts (p : PopPos) : BufferIgnoresGhosts (popMicro p) := fun B => by
  cases p with
  | po1 => exact ⟨_, _, _, rfl, rfl, rfl⟩
  | po2 h =>
    by_cases hempty : h = B.tail
    · exact ⟨B, B.eraseGhosts, _, if_pos hempty, if_pos hempty, rfl⟩
    · exact ⟨B, B.eraseGhosts, _, if_neg hempty, if_neg hempty, rfl⟩
  | po3 h t => exact ⟨_, _, _, rfl, rfl, rfl⟩
  | po4 h t v => exact ⟨_, _, _, rfl, rfl, rfl⟩

@[simp] theorem lenMicro_eraseGhosts (p : LenPos) (B : RingBuffer) : lenMicro p B.eraseGhosts = lenMicro p B := by
  cases p <;> rfl

/-- The same of a SEND_BYTE (R142). -/
theorem sendMicro_eraseGhosts (p : SendPos) (s : State) :
    ∃ s₁ s₂ r, sendMicro p s = (s₁, r) ∧ sendMicro p s.eraseGhosts = (s₂, r) ∧ s₂.eraseGhosts = s₁.eraseGhosts := by
  cases p with
  | ar1 => exact ⟨_, _, _, rfl, rfl, rfl⟩
  | push q =>
    obtain ⟨B₁, B₂, r, h₁, h₂, hB⟩ := pushMicro_ignoresGhosts q s.tx
    simp only [sendMicro, State.eraseGhosts_tx, h₁, h₂]
    rcases r with q' | (_ | _) <;> exact ⟨_, _, _, rfl, rfl, by simp [hB]⟩

theorem prodMicro_ignoresGhosts : IgnoresGhosts prodMicro := fun s => by
  unfold prodMicro
  rw [State.eraseGhosts_prod]
  cases s.prod with
  | idle => rfl
  | push p =>
    obtain ⟨B₁, B₂, r, h₁, h₂, hB⟩ := pushMicro_ignoresGhosts p s.rb
    simp only [State.eraseGhosts_rb, h₁, h₂]
    cases r <;> simp [hB]
  | len p =>
    simp only [State.eraseGhosts_rb, lenMicro_eraseGhosts]
    cases lenMicro p s.rb <;> rfl

theorem consMicro_ignoresGhosts : IgnoresGhosts consMicro := fun s => by
  unfold consMicro
  rw [State.eraseGhosts_cons]
  cases s.cons with
  | idle => rfl
  | pop p =>
    obtain ⟨B₁, B₂, r, h₁, h₂, hB⟩ := popMicro_ignoresGhosts p s.rb
    simp only [State.eraseGhosts_rb, h₁, h₂]
    cases r <;> simp [hB]
  | len p =>
    simp only [State.eraseGhosts_rb, lenMicro_eraseGhosts]
    cases lenMicro p s.rb <;> rfl

theorem fgMicro_ignoresGhosts : IgnoresGhosts fgMicro := fun s => by
  unfold fgMicro
  rw [State.eraseGhosts_fg]
  cases s.fg with
  | idle => rfl
  | sendByte p =>
    obtain ⟨s₁, s₂, r, h₁, h₂, hs⟩ := sendMicro_eraseGhosts p s
    simp only [h₁, h₂]
    cases r <;> simp [hs]
  | sl0 hf bytes => cases hf <;> rfl
  | sendLine p stage rest =>
    obtain ⟨s₁, s₂, r, h₁, h₂, hs⟩ := sendMicro_eraseGhosts p s
    simp only [h₁, h₂]
    cases r with
    | more p' => simp [hs]
    | done r => cases lineNext stage rest <;> simp [hs]
  | readByte p =>
    obtain ⟨B₁, B₂, r, h₁, h₂, hB⟩ := popMicro_ignoresGhosts p s.rx
    simp only [State.eraseGhosts_rx, h₁, h₂]
    cases r <;> simp [hB]
  | rxLen p =>
    simp only [State.eraseGhosts_rx, lenMicro_eraseGhosts]
    cases lenMicro p s.rx <;> rfl

/-! ## Runs ignore the ghosts -/

/-- A run of micro-steps up to the context's idle position, when that position is no ghost. -/
theorem run_ignoresGhosts {run : Nat → State → State} {micro : State → State} {idle : State → Prop}
    [∀ s, Decidable (idle s)] (hzero : ∀ s, run 0 s = s)
    (hsucc : ∀ k s, run (k + 1) s = if idle s then s else run k (micro s))
    (hidle : ∀ s, idle s.eraseGhosts ↔ idle s) (hmicro : IgnoresGhosts micro) (k : Nat) : IgnoresGhosts (run k) := by
  induction k with
  | zero => exact fun s => by simp [hzero]
  | succ k ih =>
    intro s
    by_cases h : idle s
    · simp [hsucc, hidle, h]
    · simpa [hsucc, hidle, h] using ih.comp hmicro s

theorem runProd_ignoresGhosts (k : Nat) : IgnoresGhosts (runProd k) :=
  run_ignoresGhosts (fun _ => rfl) (fun _ _ => rfl) (fun _ => Iff.rfl) prodMicro_ignoresGhosts k

theorem runCons_ignoresGhosts (k : Nat) : IgnoresGhosts (runCons k) :=
  run_ignoresGhosts (fun _ => rfl) (fun _ _ => rfl) (fun _ => Iff.rfl) consMicro_ignoresGhosts k

theorem runFg_ignoresGhosts (k : Nat) : IgnoresGhosts (runFg k) :=
  run_ignoresGhosts (fun _ => rfl) (fun _ _ => rfl) (fun _ => Iff.rfl) fgMicro_ignoresGhosts k

/-! ## The handlers' bodies -/

/-- RXH4 and RXH5 (R171): what IRQ_RX does with the sample it has read. -/
def irqRxFinish (x : Sample) (s : State) : State :=
  let s4 := s.noteRead x (!s.rx.isFull)
  let s5 := if x.fe then s4 else s4.withRx (pushWhole x.data s4.rx).1
  if x.ovr then halRxEnable (halRxDisable s5) else s5

/-- IRQ_RX is its three reads and then `irqRxFinish`. -/
theorem irqRxBody_eq (s : State) :
    irqRxBody s =
      let fe := halQueryFramingError s
      let ovr := halQueryOverrun fe.2
      let b := halReadRxRegister ovr.2
      irqRxFinish { data := b.1, fe := fe.1, ovr := ovr.1 } b.2 := rfl

theorem pushRx_ignoresGhosts (v : Byte) : IgnoresGhosts (fun s => s.withRx (pushWhole v s.rx).1) := fun s => by
  by_cases hfull : advance s.rx.n s.rx.head = s.rx.tail <;> simp [pushWhole_eq, hfull]

theorem irqRxFinish_ignoresGhosts (x : Sample) : IgnoresGhosts (irqRxFinish x) := by
  have hnote : IgnoresGhosts (fun s => s.noteRead x (!s.rx.isFull)) := fun _ => rfl
  have hpush : IgnoresGhosts (fun s => if x.fe then s else s.withRx (pushWhole x.data s.rx).1) := by
    cases x.fe with
    | true => exact fun _ => rfl
    | false => exact pushRx_ignoresGhosts x.data
  have hrestart : IgnoresGhosts (fun s => if x.ovr then halRxEnable (halRxDisable s) else s) := by
    cases x.ovr <;> exact fun _ => rfl
  exact hrestart.comp (hpush.comp hnote)

theorem irqRxBody_ignoresGhosts : IgnoresGhosts irqRxBody := fun s => by
  rw [irqRxBody_eq, irqRxBody_eq]
  exact (halQueryFramingError_ignoresGhosts.bind fun fe => halQueryOverrun_ignoresGhosts.bind fun ovr =>
    halReadRxRegister_ignoresGhosts.bind fun b => irqRxFinish_ignoresGhosts ⟨b, fe, ovr⟩) s

theorem popWhole_ignoresGhosts : BufferIgnoresGhosts popWhole := fun B => by
  rw [popWhole_eq, popWhole_eq]
  by_cases hempty : B.head = B.tail
  · exact ⟨B, B.eraseGhosts, _, if_pos hempty, if_pos hempty, rfl⟩
  · exact ⟨B.popped1, B.eraseGhosts.popped1, _, if_neg hempty, if_neg hempty, rfl⟩

theorem irqTxBody_ignoresGhosts : IgnoresGhosts irqTxBody := fun s => by
  obtain ⟨B₁, B₂, r, h₁, h₂, hB⟩ := popWhole_ignoresGhosts s.tx
  have hstate : (s.eraseGhosts.withTx B₂).eraseGhosts = (s.withTx B₁).eraseGhosts := by simp [hB]
  unfold irqTxBody
  rw [State.eraseGhosts_tx, h₁, h₂]
  cases r with
  | empty => exact (halSetTxInterruptEnabled_ignoresGhosts false).congr hstate
  | some v =>
    have hmask : IgnoresGhosts (fun s => if s.tx.head = s.tx.tail then halSetTxInterruptEnabled false s else s) :=
      fun t => by
        by_cases hempty : t.tx.head = t.tx.tail <;> simp [hempty, halSetTxInterruptEnabled_ignoresGhosts false t]
    exact (hmask.comp (halWriteTxRegister_ignoresGhosts v)).congr hstate

/-! ## Issuing, turns and handlers -/

theorem issueFg_ignoresGhosts (p : FgPos) : OutcomeIgnoresGhosts (issueFg p) :=
  .ite (fun _ => Iff.rfl) (refused_ignoresGhosts _) <| .ite (fun _ => Iff.rfl) (refused_ignoresGhosts _) <|
    .ite (fun _ => Iff.rfl) (IgnoresGhosts.next fun _ => rfl) (fault_ignoresGhosts _)

theorem issueProd_ignoresGhosts (p : ProdPos) : OutcomeIgnoresGhosts (issueProd p) :=
  .ite (fun _ => Iff.rfl) (refused_ignoresGhosts _) <|
    .ite (fun _ => Iff.rfl) (IgnoresGhosts.next fun _ => rfl) (fault_ignoresGhosts _)

theorem issueCons_ignoresGhosts (p : ConsPos) : OutcomeIgnoresGhosts (issueCons p) :=
  .ite (fun _ => Iff.rfl) (refused_ignoresGhosts _) <|
    .ite (fun _ => Iff.rfl) (IgnoresGhosts.next fun _ => rfl) (fault_ignoresGhosts _)

theorem fgTurn_ignoresGhosts : OutcomeIgnoresGhosts fgTurn :=
  .ite (fun _ => Iff.rfl) (refused_ignoresGhosts _) <|
    .ite (fun _ => Iff.rfl) fgMicro_ignoresGhosts.next (fault_ignoresGhosts _)

theorem prodTurn_ignoresGhosts : OutcomeIgnoresGhosts prodTurn :=
  .ite (fun _ => Iff.rfl) (refused_ignoresGhosts _) <|
    .ite (fun _ => Iff.rfl) prodMicro_ignoresGhosts.next (fault_ignoresGhosts _)

theorem consTurn_ignoresGhosts : OutcomeIgnoresGhosts consTurn :=
  .ite (fun _ => Iff.rfl) (refused_ignoresGhosts _) <|
    .ite (fun _ => Iff.rfl) consMicro_ignoresGhosts.next (fault_ignoresGhosts _)

/-- A handler whose request and index check read no ghost (R229). -/
theorem takeHandler_ignoresGhosts {request inRange : State → Bool} {body : State → State}
    (hreq : ∀ s, request s.eraseGhosts = request s) (hrange : ∀ s, inRange s.eraseGhosts = inRange s)
    (hbody : IgnoresGhosts body) :
    OutcomeIgnoresGhosts (fun s => takeHandler (request s) (inRange s) body s) :=
  .ite (fun _ => Iff.rfl) (refused_ignoresGhosts _) <|
    .ite (fun s => by simp [hreq])
      (.ite (fun s => by simp [hrange]) hbody.next (fault_ignoresGhosts _)) (refused_ignoresGhosts _)

/-! ## The operations -/

theorem execSendLine_ignoresGhosts (h : Bool) : OutcomeIgnoresGhosts (execSendLine h) := fun s =>
  (issueFg_ignoresGhosts (.sl0 h (lineOperand h s))).andThen (runFg_ignoresGhosts _) s

theorem execRbLen_ignoresGhosts : OutcomeIgnoresGhosts execRbLen := fun s => by
  unfold execRbLen
  rw [State.eraseGhosts_rbPort]
  cases s.rbPort with
  | prod => exact (issueProd_ignoresGhosts _).andThen (runProd_ignoresGhosts 2) s
  | cons => exact (issueCons_ignoresGhosts _).andThen (runCons_ignoresGhosts 2) s

theorem execInit_ignoresGhosts : OutcomeIgnoresGhosts execInit :=
  .ite (fun _ => Iff.rfl) (refused_ignoresGhosts _) <| .ite (fun _ => Iff.rfl) (refused_ignoresGhosts _) <|
    .ite (fun _ => Iff.rfl) (refused_ignoresGhosts _) initBody_ignoresGhosts.next

/-- A word that only changes the collaborator and answers OK at its port (R191, R193, R196 to R198). -/
theorem IgnoresGhosts.nextAnswered {f : State → State} (hf : IgnoresGhosts f) (p : Port) (rw : Word) :
    OutcomeIgnoresGhosts (fun s => .next ((f s).answer p rw)) := ((answer_ignoresGhosts p rw).comp hf).next

/-- A word that reads the collaborator and answers what it read (R192, R194, R195). -/
theorem ReadIgnoresGhosts.nextAnswered {α : Type} {f : State → α × State} (hf : ReadIgnoresGhosts f) (p : Port)
    (rw : α → Word) : OutcomeIgnoresGhosts (fun s => .next ((f s).2.answer p (rw (f s).1))) :=
  (hf.bind fun v => answer_ignoresGhosts p (rw v)).next

/-- No operation's effect depends on a ghost. -/
theorem exec_ignoresGhosts (i : Instr) : OutcomeIgnoresGhosts (exec i) := by
  cases i with
  | rbPush v => exact (issueProd_ignoresGhosts _).andThen (runProd_ignoresGhosts 4)
  | rbPop => exact (issueCons_ignoresGhosts _).andThen (runCons_ignoresGhosts 4)
  | rbLen => exact execRbLen_ignoresGhosts
  | init => exact execInit_ignoresGhosts
  | sendByte v => exact (issueFg_ignoresGhosts _).andThen (runFg_ignoresGhosts _)
  | sendLine h => exact execSendLine_ignoresGhosts h
  | readByte => exact (issueFg_ignoresGhosts _).andThen (runFg_ignoresGhosts _)
  | rxLen => exact (issueFg_ignoresGhosts _).andThen (runFg_ignoresGhosts _)
  | irqRx => exact takeHandler_ignoresGhosts (fun _ => rfl) (fun _ => rfl) irqRxBody_ignoresGhosts
  | irqTx => exact takeHandler_ignoresGhosts (fun _ => rfl) (fun _ => rfl) irqTxBody_ignoresGhosts
  | writeTxRegister v =>
    exact .ite (fun _ => Iff.rfl) ((halWriteTxRegister_ignoresGhosts v).nextAnswered _ _) (fault_ignoresGhosts _)
  | readRxRegister => exact halReadRxRegister_ignoresGhosts.nextAnswered .hal rwOk
  | setTxInterruptEnabled b => exact (halSetTxInterruptEnabled_ignoresGhosts b).nextAnswered _ _
  | queryFramingError => exact halQueryFramingError_ignoresGhosts.nextAnswered .hal flagRw
  | queryOverrun => exact halQueryOverrun_ignoresGhosts.nextAnswered .hal flagRw
  | rxDisable => exact halRxDisable_ignoresGhosts.nextAnswered _ _
  | rxEnable => exact halRxEnable_ignoresGhosts.nextAnswered _ _
  | configureLine => exact halConfigureLine_ignoresGhosts.nextAnswered _ _
  | envTxReady => exact .ite (fun _ => Iff.rfl) (IgnoresGhosts.next fun _ => rfl) (refused_ignoresGhosts _)
  | envRxArrive f o d => exact .ite (fun _ => Iff.rfl) (IgnoresGhosts.next fun _ => rfl) (refused_ignoresGhosts _)
  | hostGie b => exact IgnoresGhosts.next fun _ => rfl

/-- An operation that is only issued: a context is put at its first micro-step, or the operation is performed (R203). -/
theorem issue_ignoresGhosts (i : Instr) : OutcomeIgnoresGhosts (issue i) := by
  cases i with
  | rbPush v => exact issueProd_ignoresGhosts _
  | rbPop => exact issueCons_ignoresGhosts _
  | rbLen =>
    intro s
    unfold issue
    rw [State.eraseGhosts_rbPort]
    cases s.rbPort with
    | prod => exact issueProd_ignoresGhosts _ s
    | cons => exact issueCons_ignoresGhosts _ s
  | sendByte v => exact issueFg_ignoresGhosts _
  | sendLine h => exact fun s => issueFg_ignoresGhosts (.sl0 h (lineOperand h s)) s
  | readByte => exact issueFg_ignoresGhosts _
  | rxLen => exact issueFg_ignoresGhosts _
  | init | irqRx | irqTx | writeTxRegister | readRxRegister | setTxInterruptEnabled | queryFramingError
  | queryOverrun | rxDisable | rxEnable | configureLine | envTxReady | envRxArrive | hostGie =>
    unfold issue
    exact exec_ignoresGhosts _

theorem perform_ignoresGhosts (m : WordMode) (i : Instr) : OutcomeIgnoresGhosts (perform m i) := by
  cases m with
  | whole => exact exec_ignoresGhosts i
  | issue => exact issue_ignoresGhosts i

/-! ## Turns and steps -/

/-- Whether a word is performed, refused or answered ILLEGAL is settled by port and word alone (R85, R237). -/
theorem deliver_ignoresGhosts (p : Port) (m : WordMode) (cw : Word) (line : List Byte) :
    OutcomeIgnoresGhosts (deliver p m cw line) := fun s => by
  unfold deliver
  cases decode cw with
  | error e => exact (answer_ignoresGhosts p rwIllegal).next s
  | ok i =>
    dsimp only
    split_ifs
    · rw [present_eraseGhosts]
      exact perform_ignoresGhosts m i (present p line s)
    · rfl
    · exact (answer_ignoresGhosts p rwIllegal).next s

theorem takeTurn_ignoresGhosts (t : Turn) : OutcomeIgnoresGhosts (takeTurn t) := by
  cases t with
  | word p m cw line => exact deliver_ignoresGhosts p m cw line
  | micro c =>
    cases c with
    | fg => exact fgTurn_ignoresGhosts
    | prod => exact prodTurn_ignoresGhosts
    | cons => exact consTurn_ignoresGhosts

theorem noTurn_ignoresGhosts : OutcomeIgnoresGhosts noTurn :=
  .ite (fun _ => Iff.rfl) fgTurn_ignoresGhosts <| .ite (fun _ => Iff.rfl) prodTurn_ignoresGhosts <|
    .ite (fun _ => Iff.rfl) consTurn_ignoresGhosts (IgnoresGhosts.next fun _ => rfl)

theorem step_ignoresGhosts : OutcomeIgnoresGhosts step := fun s => by
  unfold step
  rw [State.eraseGhosts_agenda, State.restAgenda_eraseGhosts]
  cases s.agenda with
  | nil => exact noTurn_ignoresGhosts s
  | cons t rest => exact takeTurn_ignoresGhosts t s.restAgenda

/-- Settles O55: the schedule is no ghost, and every turn it can hold ignores the ghosts. -/
theorem ghostsInfluenceNothing : Obligations.GhostsInfluenceNothing :=
  fun s => (step_ignoresGhosts s).symm

end Sys2Proof.Machine
end

section
/-! What an operation, a micro-step or a handler can write in a buffer and in `gie` (R22, R23, R31), said once for each
of them, and the statements about the state that follow from it: the one writer of each index, the memory frame, the
capacities, the canonical form of the storages and the global enable. -/

namespace Sys2Proof.Machine

/-! ## What the two roles can write in a buffer (R22) -/

/-- A producer's writes: `head`, the storage, which stays canonical, and the ghost `pushed`. -/
structure RingBuffer.ChangedByProducer (B B' : RingBuffer) : Prop where
  space : B'.space = B.space
  cap : B'.cap = B.cap
  tail : B'.tail = B.tail
  popped : B'.popped = B.popped
  wf : B.storage.wf → B'.storage.wf

/-- A consumer's writes: `tail` and the ghost `popped`. -/
structure RingBuffer.ChangedByConsumer (B B' : RingBuffer) : Prop where
  space : B'.space = B.space
  cap : B'.cap = B.cap
  head : B'.head = B.head
  storage : B'.storage = B.storage
  pushed : B'.pushed = B.pushed

/-- No slot is written: at most the indices and the ghosts differ. -/
structure RingBuffer.StoresNothing (B B' : RingBuffer) : Prop where
  space : B'.space = B.space
  cap : B'.cap = B.cap
  storage : B'.storage = B.storage

/-- The capacity is kept, and so is the canonical form of the storage. -/
structure RingBuffer.KeepsForm (B B' : RingBuffer) : Prop where
  cap : B'.cap = B.cap
  wf : B.storage.wf → B'.storage.wf

section roles
variable {B B' B'' : RingBuffer}

theorem RingBuffer.ChangedByProducer.refl (B : RingBuffer) : B.ChangedByProducer B := ⟨rfl, rfl, rfl, rfl, id⟩
theorem RingBuffer.ChangedByConsumer.refl (B : RingBuffer) : B.ChangedByConsumer B := ⟨rfl, rfl, rfl, rfl, rfl⟩
theorem RingBuffer.StoresNothing.refl (B : RingBuffer) : B.StoresNothing B := ⟨rfl, rfl, rfl⟩
theorem RingBuffer.KeepsForm.refl (B : RingBuffer) : B.KeepsForm B := ⟨rfl, id⟩

theorem RingBuffer.ChangedByProducer.trans (h : B.ChangedByProducer B') (h' : B'.ChangedByProducer B'') :
    B.ChangedByProducer B'' :=
  ⟨h'.space.trans h.space, h'.cap.trans h.cap, h'.tail.trans h.tail, h'.popped.trans h.popped, h'.wf ∘ h.wf⟩

theorem RingBuffer.ChangedByConsumer.trans (h : B.ChangedByConsumer B') (h' : B'.ChangedByConsumer B'') :
    B.ChangedByConsumer B'' :=
  ⟨h'.space.trans h.space, h'.cap.trans h.cap, h'.head.trans h.head, h'.storage.trans h.storage,
    h'.pushed.trans h.pushed⟩

theorem RingBuffer.ChangedByConsumer.storesNothing (h : B.ChangedByConsumer B') : B.StoresNothing B' :=
  ⟨h.space, h.cap, h.storage⟩

theorem RingBuffer.StoresNothing.keepsForm (h : B.StoresNothing B') : B.KeepsForm B' :=
  ⟨h.cap, fun hwf => h.storage ▸ hwf⟩

theorem RingBuffer.ChangedByProducer.keepsForm (h : B.ChangedByProducer B') : B.KeepsForm B' := ⟨h.cap, h.wf⟩

/-- A slot reads as before where nothing is stored. -/
theorem RingBuffer.StoresNothing.readSlot (h : B.StoresNothing B') (a : Nat) : B'.readSlot a = B.readSlot a := by
  unfold RingBuffer.readSlot
  rw [h.space, h.storage]

end roles

/-! ## Pushes and pops on a buffer -/

theorem pushMicro_changedByProducer (p : PushPos) (B : RingBuffer) : B.ChangedByProducer (pushMicro p B).1 := by
  cases p with
  | pu1 v => exact .refl B
  | pu2 v h =>
    dsimp only [pushMicro]
    split_ifs <;> exact .refl B
  | pu3 v h t next => exact ⟨rfl, rfl, rfl, rfl, fun hwf => Memory.wf_write hwf h v⟩
  | pu4 v h t next => exact ⟨rfl, rfl, rfl, rfl, id⟩

theorem popMicro_changedByConsumer (p : PopPos) (B : RingBuffer) : B.ChangedByConsumer (popMicro p B).1 := by
  cases p with
  | po1 => exact .refl B
  | po2 h =>
    dsimp only [popMicro]
    split_ifs <;> exact .refl B
  | po3 h t => exact .refl B
  | po4 h t v => exact ⟨rfl, rfl, rfl, rfl, rfl⟩

theorem pushWhole_changedByProducer (v : Byte) (B : RingBuffer) : B.ChangedByProducer (pushWhole v B).1 := by
  rw [pushWhole_eq]
  split_ifs
  · exact .refl B
  · exact ⟨rfl, rfl, rfl, rfl, fun hwf => Memory.wf_write hwf B.head v⟩

theorem popWhole_changedByConsumer (B : RingBuffer) : B.ChangedByConsumer (popWhole B).1 := by
  rw [popWhole_eq]
  split_ifs
  · exact .refl B
  · exact ⟨rfl, rfl, rfl, rfl, rfl⟩

/-- A push stores at most into slot `head` (R111). -/
theorem pushWhole_readSlot_other (v : Byte) (B : RingBuffer) {a : Nat} (h : a ≠ B.head) :
    (pushWhole v B).1.readSlot a = B.readSlot a := by
  rw [pushWhole_eq]
  split_ifs
  · rfl
  · exact B.readSlot_pushed1_other v h

/-! ## Micro-steps of the contexts (R22, R236) -/

/-- What the foreground leaves: it is TX's producer and RX's consumer. -/
structure State.ChangedByForeground (s t : State) : Prop where
  tx : s.tx.ChangedByProducer t.tx
  rx : s.rx.ChangedByConsumer t.rx
  rb : t.rb = s.rb
  gie : t.gie = s.gie

/-- What the stand-alone buffer's producer context leaves. -/
structure State.ChangedByProd (s t : State) : Prop where
  rb : s.rb.ChangedByProducer t.rb
  tx : t.tx = s.tx
  rx : t.rx = s.rx
  hal : t.hal = s.hal
  fg : t.fg = s.fg
  cons : t.cons = s.cons
  gie : t.gie = s.gie

/-- What the stand-alone buffer's consumer context leaves. -/
structure State.ChangedByCons (s t : State) : Prop where
  rb : s.rb.ChangedByConsumer t.rb
  tx : t.tx = s.tx
  rx : t.rx = s.rx
  hal : t.hal = s.hal
  fg : t.fg = s.fg
  prod : t.prod = s.prod
  gie : t.gie = s.gie

theorem State.ChangedByForeground.refl (s : State) : s.ChangedByForeground s := ⟨.refl _, .refl _, rfl, rfl⟩

theorem State.ChangedByForeground.trans {s t u : State} (h : s.ChangedByForeground t) (h' : t.ChangedByForeground u) :
    s.ChangedByForeground u :=
  ⟨h.tx.trans h'.tx, h.rx.trans h'.rx, h'.rb.trans h.rb, h'.gie.trans h.gie⟩

theorem State.ChangedByForeground.withFg {s t : State} (h : s.ChangedByForeground t) (p : FgPos) :
    s.ChangedByForeground (t.withFg p) := ⟨h.tx, h.rx, h.rb, h.gie⟩

theorem State.ChangedByForeground.answer {s t : State} (h : s.ChangedByForeground t) (p : Port) (rw : Word) :
    s.ChangedByForeground (t.answer p rw) := ⟨h.tx, h.rx, h.rb, h.gie⟩

theorem sendMicro_changedByForeground (p : SendPos) (s : State) : s.ChangedByForeground (sendMicro p s).1 := by
  cases p with
  | ar1 => exact ⟨.refl _, .refl _, rfl, rfl⟩
  | push q =>
    have hq := pushMicro_changedByProducer q s.tx
    dsimp only [sendMicro]
    generalize pushMicro q s.tx = r at hq ⊢
    rcases r with ⟨B, q' | _ | _⟩ <;> exact ⟨hq, .refl _, rfl, rfl⟩

theorem fgMicro_changedByForeground (s : State) : s.ChangedByForeground (fgMicro s) := by
  unfold fgMicro
  cases s.fg with
  | idle => exact .refl s
  | sendByte p =>
    have hp := sendMicro_changedByForeground p s
    dsimp only
    generalize sendMicro p s = r at hp ⊢
    rcases r with ⟨s', p' | r⟩
    · exact hp.withFg _
    · exact (hp.withFg _).answer _ _
  | sl0 hf bytes =>
    cases hf with
    | true => exact (State.ChangedByForeground.refl s).withFg _
    | false => exact ((State.ChangedByForeground.refl s).withFg _).answer _ _
  | sendLine p stage rest =>
    have hp := sendMicro_changedByForeground p s
    dsimp only
    generalize sendMicro p s = r at hp ⊢
    rcases r with ⟨s', p' | r⟩
    · exact hp.withFg _
    · dsimp only
      cases lineNext stage rest with
      | some x => exact hp.withFg _
      | none => exact (hp.withFg _).answer _ _
  | readByte p =>
    have hp := popMicro_changedByConsumer p s.rx
    dsimp only
    generalize popMicro p s.rx = r at hp ⊢
    rcases r with ⟨B, p' | r⟩ <;> exact ⟨.refl _, hp, rfl, rfl⟩
  | rxLen p =>
    dsimp only
    cases lenMicro p s.rx with
    | more p' => exact (State.ChangedByForeground.refl s).withFg _
    | done k => exact ((State.ChangedByForeground.refl s).withFg _).answer _ _

theorem runFg_changedByForeground (k : Nat) (s : State) : s.ChangedByForeground (runFg k s) :=
  runFg_keeps (P := s.ChangedByForeground) (fun u hu _ => hu.trans (fgMicro_changedByForeground u)) k s (.refl s)

theorem prodMicro_changedByProd (s : State) : s.ChangedByProd (prodMicro s) := by
  unfold prodMicro
  cases s.prod with
  | idle => exact ⟨.refl _, rfl, rfl, rfl, rfl, rfl, rfl⟩
  | push p =>
    have hp := pushMicro_changedByProducer p s.rb
    dsimp only
    generalize pushMicro p s.rb = r at hp ⊢
    rcases r with ⟨B, p' | r⟩ <;> exact ⟨hp, rfl, rfl, rfl, rfl, rfl, rfl⟩
  | len p =>
    dsimp only
    cases lenMicro p s.rb <;> exact ⟨.refl _, rfl, rfl, rfl, rfl, rfl, rfl⟩

theorem consMicro_changedByCons (s : State) : s.ChangedByCons (consMicro s) := by
  unfold consMicro
  cases s.cons with
  | idle => exact ⟨.refl _, rfl, rfl, rfl, rfl, rfl, rfl⟩
  | pop p =>
    have hp := popMicro_changedByConsumer p s.rb
    dsimp only
    generalize popMicro p s.rb = r at hp ⊢
    rcases r with ⟨B, p' | r⟩ <;> exact ⟨hp, rfl, rfl, rfl, rfl, rfl, rfl⟩
  | len p =>
    dsimp only
    cases lenMicro p s.rb <;> exact ⟨.refl _, rfl, rfl, rfl, rfl, rfl, rfl⟩

/-! ## The handlers (R171, R172) -/

/-- What IRQ_RX leaves: it is RX's producer, and it pushes at most the one byte it has read. -/
structure State.ChangedByIrqRx (s t : State) : Prop where
  tx : t.tx = s.tx
  rx : t.rx = s.rx ∨ ∃ v, t.rx = (pushWhole v s.rx).1
  rb : t.rb = s.rb
  gie : t.gie = s.gie
  txArmed : t.hal.txArmed = s.hal.txArmed
  txLog : t.hal.txLog = s.hal.txLog
  txRegEmpty : t.hal.txRegEmpty = s.hal.txRegEmpty

/-- What IRQ_TX leaves: it is TX's consumer. -/
structure State.ChangedByIrqTx (s t : State) : Prop where
  tx : s.tx.ChangedByConsumer t.tx
  rx : t.rx = s.rx
  rb : t.rb = s.rb
  gie : t.gie = s.gie
  rxSample : t.hal.rxSample = s.hal.rxSample
  rxEnabled : t.hal.rxEnabled = s.hal.rxEnabled

theorem irqRxFinish_changedByIrqRx (x : Sample) (s : State) : s.ChangedByIrqRx (irqRxFinish x s) := by
  obtain ⟨data, fe, ovr⟩ := x
  have hdropped : s.ChangedByIrqRx (irqRxFinish ⟨data, true, ovr⟩ s) := by
    cases ovr <;> exact ⟨rfl, .inl rfl, rfl, rfl, rfl, rfl, rfl⟩
  have hpushed : s.ChangedByIrqRx (irqRxFinish ⟨data, false, ovr⟩ s) := by
    cases ovr <;> exact ⟨rfl, .inr ⟨data, rfl⟩, rfl, rfl, rfl, rfl, rfl⟩
  cases fe
  · exact hpushed
  · exact hdropped

/-- With a sample waiting, the reads of IRQ_RX return its flags and its byte (R171, R192, R194, R195). -/
theorem irqRxBody_of_sample {s : State} {x : Sample} (hx : s.hal.rxSample = some x) :
    irqRxBody s = irqRxFinish x (s.withHal s.hal.queryFramingError.queryOverrun.readRxRegister) := by
  simp only [irqRxBody_eq, halQueryFramingError, halQueryOverrun, halReadRxRegister, hx, State.withHal_hal,
    Collaborator.queryFramingError_rxSample, Collaborator.queryOverrun_rxSample]
  rfl

/-- IRQ_RX is taken only with a sample waiting (R229). -/
theorem execIrqRx_changedByIrqRx {s t : State} (h : exec .irqRx s = .next t) : s.ChangedByIrqRx t := by
  obtain ⟨-, hreq, -, -, rfl⟩ := takeHandler_next h
  obtain ⟨x, hx⟩ : ∃ x, s.hal.rxSample = some x := by
    simp only [Collaborator.reqRx, Bool.and_eq_true] at hreq
    exact Option.isSome_iff_exists.mp hreq.2
  rw [irqRxBody_of_sample hx]
  obtain ⟨htx, hrx, hrb, hgie, harmed, hlog, hempty⟩ := irqRxFinish_changedByIrqRx x
    (s.withHal s.hal.queryFramingError.queryOverrun.readRxRegister)
  exact ⟨htx, hrx, hrb, hgie, harmed, hlog, hempty⟩

theorem irqTxBody_changedByIrqTx (s : State) : s.ChangedByIrqTx (irqTxBody s) := by
  have hpop := popWhole_changedByConsumer s.tx
  unfold irqTxBody
  generalize popWhole s.tx = r at hpop ⊢
  rcases r with ⟨B, v | _⟩
  · dsimp only
    split_ifs <;> exact ⟨hpop, rfl, rfl, rfl, rfl, rfl⟩
  · exact ⟨hpop, rfl, rfl, rfl, rfl, rfl⟩

theorem execIrqTx_changedByIrqTx {s t : State} (h : exec .irqTx s = .next t) : s.ChangedByIrqTx t := by
  obtain ⟨-, -, -, -, rfl⟩ := takeHandler_next h
  exact irqTxBody_changedByIrqTx s

/-- Settles O51: the micro-steps of each context and the two handlers are those of its roles. -/
theorem eachIndexHasOneWriter : Obligations.EachIndexHasOneWriter := by
  refine ⟨fun s t h => ?_, fun s t h => ?_, fun s t h => ?_, fun s t h => ?_, fun s t h => ?_⟩
  · obtain ⟨-, -, rfl⟩ := fgTurn_next h
    have hfg := fgMicro_changedByForeground s
    exact ⟨hfg.tx.tail, hfg.rx.head, hfg.rx.storage, hfg.rb⟩
  · obtain ⟨-, -, rfl⟩ := prodTurn_next h
    obtain ⟨hrb, htx, hrx, hhal, hfg, hcons, -⟩ := prodMicro_changedByProd s
    exact ⟨hrb.tail, htx, hrx, hhal, hfg, hcons⟩
  · obtain ⟨-, -, rfl⟩ := consTurn_next h
    obtain ⟨hrb, htx, hrx, hhal, hfg, hprod, -⟩ := consMicro_changedByCons s
    exact ⟨hrb.head, hrb.storage, htx, hrx, hhal, hfg, hprod⟩
  · obtain ⟨htx, hrx, -, -, harmed, hlog, hempty⟩ := execIrqRx_changedByIrqRx h
    have htail : t.rx.tail = s.rx.tail := by
      rcases hrx with hrx | ⟨v, hrx⟩
      · rw [hrx]
      · rw [hrx]
        exact (pushWhole_changedByProducer v s.rx).tail
    exact ⟨htail, htx, harmed, hlog, hempty⟩
  · obtain ⟨htx, hrx, -, -, hsample, henabled⟩ := execIrqTx_changedByIrqTx h
    exact ⟨htx.head, htx.storage, hrx, hsample, henabled⟩

/-! ## Operations performed whole: the state each leaves when it answers a next state -/

/-- A run of the producer over an RB_LEN it has just begun (R113). -/
theorem runProd_len (s : State) :
    runProd 2 (s.withProd (.len .ln1)) = (s.withProd .idle).answer .prod (lengthRw s.rb.occ) := rfl

/-- A run of the consumer over an RB_LEN it has just begun (R113). -/
theorem runCons_len (s : State) :
    runCons 2 (s.withCons (.len .ln1)) = (s.withCons .idle).answer .cons (lengthRw s.rb.occ) := rfl

/-- A run of the foreground over an RX_LEN it has just begun (R145). -/
theorem runFg_rxLen (s : State) :
    runFg 2 (s.withFg (.rxLen .ln1)) = (s.withFg .idle).answer .fg (lengthRw s.rx.occ) := rfl

section operations
variable {s t : State}

theorem execRbPush_next {v : Byte} (h : exec (.rbPush v) s = .next t) :
    t = ((s.withRb (pushWhole v s.rb).1).withProd .idle).answer .prod (pushWhole v s.rb).2.rw := by
  obtain ⟨s', hissue, rfl⟩ := andThen_next h
  obtain ⟨-, -, rfl⟩ := issueProd_next hissue
  exact runProd_push s v

theorem execRbPop_next (h : exec .rbPop s = .next t) :
    t = ((s.withRb (popWhole s.rb).1).withCons .idle).answer .cons (popWhole s.rb).2.rw := by
  obtain ⟨s', hissue, rfl⟩ := andThen_next h
  obtain ⟨-, -, rfl⟩ := issueCons_next hissue
  exact runCons_pop s

/-- RB_LEN is performed by the context at whose port it stands. -/
theorem execRbLen_next (h : exec .rbLen s = .next t) :
    t = (s.withProd .idle).answer .prod (lengthRw s.rb.occ) ∨
    t = (s.withCons .idle).answer .cons (lengthRw s.rb.occ) := by
  change execRbLen s = .next t at h
  unfold execRbLen at h
  cases hport : s.rbPort with
  | prod =>
    rw [hport] at h
    obtain ⟨s', hissue, rfl⟩ := andThen_next h
    obtain ⟨-, -, rfl⟩ := issueProd_next hissue
    exact .inl (runProd_len s)
  | cons =>
    rw [hport] at h
    obtain ⟨s', hissue, rfl⟩ := andThen_next h
    obtain ⟨-, -, rfl⟩ := issueCons_next hissue
    exact .inr (runCons_len s)

theorem execInit_next (h : exec .init s = .next t) : t = initBody s := by
  change execInit s = .next t at h
  unfold execInit at h
  split_ifs at h
  exact (Host.Outcome.next.inj h).symm

theorem execSendByte_next {v : Byte} (h : exec (.sendByte v) s = .next t) :
    t = ((sendEffect v s).withFg .idle).answer .fg (sendResult s).rw := by
  obtain ⟨s', hissue, rfl⟩ := andThen_next h
  obtain ⟨-, -, -, rfl⟩ := issueFg_next hissue
  exact runFg_sendByte s v

theorem execSendLine_changedByForeground {b : Bool} (h : exec (.sendLine b) s = .next t) :
    s.ChangedByForeground t := by
  obtain ⟨s', hissue, rfl⟩ := andThen_next h
  obtain ⟨-, -, -, rfl⟩ := issueFg_next hissue
  exact ((State.ChangedByForeground.refl s).withFg _).trans (runFg_changedByForeground _ _)

theorem execReadByte_next (h : exec .readByte s = .next t) :
    t = ((s.withRx (popWhole s.rx).1).withFg .idle).answer .fg (popWhole s.rx).2.rw := by
  obtain ⟨s', hissue, rfl⟩ := andThen_next h
  obtain ⟨-, -, -, rfl⟩ := issueFg_next hissue
  exact runFg_readByte s

theorem execRxLen_next (h : exec .rxLen s = .next t) :
    t = (s.withFg .idle).answer .fg (lengthRw s.rx.occ) := by
  obtain ⟨s', hissue, rfl⟩ := andThen_next h
  obtain ⟨-, -, -, rfl⟩ := issueFg_next hissue
  exact runFg_rxLen s

end operations

/-- A SEND_BYTE changes TX by its push, and the collaborator; nothing else (R142). -/
theorem sendEffect_frame (v : Byte) (s : State) :
    (sendEffect v s).tx = (pushWhole v s.tx).1 ∧ (sendEffect v s).rx = s.rx ∧ (sendEffect v s).rb = s.rb ∧
    (sendEffect v s).gie = s.gie := by
  rw [pushWhole_eq]
  unfold sendEffect
  split_ifs <;> exact ⟨rfl, rfl, rfl, rfl⟩

/-! ## What an operation can do to the buffers and to `gie` -/

/-- The buffers and `gie` before and after an operation: a slot is written only by RB_PUSH, SEND_BYTE, SEND_LINE and
IRQ_RX, each in its own buffer, and `gie` only by HOST_GIE. -/
structure OperationFrame (i : Instr) (s t : State) : Prop where
  rb : s.rb.StoresNothing t.rb ∨ ∃ v, i = .rbPush v ∧ t.rb = (pushWhole v s.rb).1
  tx : s.tx.StoresNothing t.tx ∨ (∃ v, i = .sendByte v ∧ t.tx = (pushWhole v s.tx).1) ∨
    ∃ b, i = .sendLine b ∧ s.tx.ChangedByProducer t.tx
  rx : s.rx.StoresNothing t.rx ∨ i = .irqRx ∧ ∃ v, t.rx = (pushWhole v s.rx).1
  gie : t.gie = s.gie ∨ ∃ b, i = .hostGie b ∧ t.gie = b

section frames
variable {i : Instr} {s t : State}

/-- An operation that stores into no buffer and leaves `gie`. -/
theorem OperationFrame.ofStoresNothing (hrb : s.rb.StoresNothing t.rb) (htx : s.tx.StoresNothing t.tx)
    (hrx : s.rx.StoresNothing t.rx) (hgie : t.gie = s.gie) : OperationFrame i s t :=
  ⟨.inl hrb, .inl htx, .inl hrx, .inl hgie⟩

/-- An operation that leaves the buffers and `gie` as they are. -/
theorem OperationFrame.ofUnchanged (hrb : t.rb = s.rb) (htx : t.tx = s.tx) (hrx : t.rx = s.rx)
    (hgie : t.gie = s.gie) : OperationFrame i s t :=
  .ofStoresNothing (hrb ▸ .refl _) (htx ▸ .refl _) (hrx ▸ .refl _) hgie

/-- A primitive that only reads the collaborator: with or without a sample waiting, no buffer is touched. -/
theorem halReads_operationFrame (p : Port) (rw : Word) :
    OperationFrame i s ((halReadRxRegister s).2.answer p rw) ∧
    OperationFrame i s ((halQueryFramingError s).2.answer p rw) ∧
    OperationFrame i s ((halQueryOverrun s).2.answer p rw) := by
  unfold halReadRxRegister halQueryFramingError halQueryOverrun
  cases s.hal.rxSample <;>
    exact ⟨.ofUnchanged rfl rfl rfl rfl, .ofUnchanged rfl rfl rfl rfl, .ofUnchanged rfl rfl rfl rfl⟩

theorem exec_operationFrame (h : exec i s = .next t) : OperationFrame i s t := by
  cases i with
  | rbPush v =>
    obtain rfl := execRbPush_next h
    exact ⟨.inr ⟨v, rfl, rfl⟩, .inl (.refl _), .inl (.refl _), .inl rfl⟩
  | rbPop =>
    obtain rfl := execRbPop_next h
    exact .ofStoresNothing (popWhole_changedByConsumer s.rb).storesNothing (.refl _) (.refl _) rfl
  | rbLen => rcases execRbLen_next h with rfl | rfl <;> exact .ofUnchanged rfl rfl rfl rfl
  | init =>
    obtain rfl := execInit_next h
    exact .ofStoresNothing (.refl _) ⟨rfl, rfl, rfl⟩ ⟨rfl, rfl, rfl⟩ rfl
  | sendByte v =>
    obtain rfl := execSendByte_next h
    obtain ⟨htx, hrx, hrb, hgie⟩ := sendEffect_frame v s
    exact ⟨.inl (hrb ▸ .refl _), .inr (.inl ⟨v, rfl, htx⟩), .inl (hrx ▸ .refl _), .inl hgie⟩
  | sendLine b =>
    have hfg := execSendLine_changedByForeground h
    exact ⟨.inl (hfg.rb ▸ .refl _), .inr (.inr ⟨b, rfl, hfg.tx⟩), .inl hfg.rx.storesNothing, .inl hfg.gie⟩
  | readByte =>
    obtain rfl := execReadByte_next h
    exact .ofStoresNothing (.refl _) (.refl _) (popWhole_changedByConsumer s.rx).storesNothing rfl
  | rxLen =>
    obtain rfl := execRxLen_next h
    exact .ofUnchanged rfl rfl rfl rfl
  | irqRx =>
    obtain ⟨htx, hrx, hrb, hgie, -, -, -⟩ := execIrqRx_changedByIrqRx h
    refine ⟨.inl (hrb ▸ .refl _), .inl (htx ▸ .refl _), ?_, .inl hgie⟩
    rcases hrx with hsame | hpush
    · exact .inl (hsame ▸ .refl _)
    · exact .inr ⟨rfl, hpush⟩
  | irqTx =>
    have htx := execIrqTx_changedByIrqTx h
    exact .ofStoresNothing (htx.rb ▸ .refl _) htx.tx.storesNothing (htx.rx ▸ .refl _) htx.gie
  | writeTxRegister v =>
    change execWriteTxRegister v s = .next t at h
    unfold execWriteTxRegister at h
    split_ifs at h
    cases h
    exact .ofUnchanged rfl rfl rfl rfl
  | readRxRegister =>
    cases h
    exact (halReads_operationFrame .hal _).1
  | queryFramingError =>
    cases h
    exact (halReads_operationFrame .hal _).2.1
  | queryOverrun =>
    cases h
    exact (halReads_operationFrame .hal _).2.2
  | setTxInterruptEnabled | rxDisable | rxEnable | configureLine =>
    cases h
    exact .ofUnchanged rfl rfl rfl rfl
  | envTxReady =>
    change execEnvTxReady s = .next t at h
    unfold execEnvTxReady at h
    split_ifs at h
    cases h
    exact .ofUnchanged rfl rfl rfl rfl
  | envRxArrive f o d =>
    change execEnvRxArrive f o d s = .next t at h
    unfold execEnvRxArrive at h
    split_ifs at h
    cases h
    exact .ofUnchanged rfl rfl rfl rfl
  | hostGie b =>
    cases h
    exact ⟨.inl (.refl _), .inl (.refl _), .inl (.refl _), .inr ⟨b, rfl, rfl⟩⟩

end frames

/-- Settles O52: where an operation stores, it pushes one byte, and a push stores at the head. -/
theorem operationsStoreOnlyAtTheHead : Obligations.OperationsStoreOnlyAtTheHead := by
  intro i s t a h
  have hframe := exec_operationFrame h
  refine ⟨fun ha => ?_, fun ha => ?_, fun ha => ?_⟩
  · rcases hframe.rb with hrb | ⟨v, rfl, hrb⟩
    · exact hrb.readSlot a
    · rw [hrb]
      exact pushWhole_readSlot_other v s.rb (ha.resolve_left fun hne => hne v rfl)
  · rcases hframe.tx with htx | ⟨v, rfl, htx⟩ | ⟨b, rfl, -⟩
    · exact htx.readSlot a
    · rw [htx]
      exact pushWhole_readSlot_other v s.tx (ha.resolve_left fun hne => hne.1 v rfl).2
    · obtain ⟨-, hne⟩ | ⟨⟨v, hv⟩, -⟩ := ha
      · exact absurd rfl (hne b)
      · cases hv
  · rcases hframe.rx with hrx | ⟨rfl, v, hrx⟩
    · exact hrx.readSlot a
    · rw [hrx]
      exact pushWhole_readSlot_other v s.rx (ha.resolve_left fun hne => hne rfl)

/-! ## What a step can do -/

theorem State.restAgenda_of_nil {s : State} (h : s.agenda = []) : s.restAgenda = s := by
  cases s
  cases h
  rfl

/-- Everything a step that answers a next state can be: nothing, a micro-step of a context, or a word at a port. -/
theorem step_next {s t : State} (h : step s = .next t) :
    t = s.restAgenda ∨ (∃ c, microTurn c s.restAgenda = .next t) ∨
    ∃ p m cw line rest, s.agenda = .word p m cw line :: rest ∧ deliver p m cw line s.restAgenda = .next t := by
  unfold step at h
  cases hagenda : s.agenda with
  | nil =>
    rw [hagenda] at h
    rw [State.restAgenda_of_nil hagenda]
    change noTurn s = .next t at h
    unfold noTurn at h
    split_ifs at h
    · exact .inr (.inl ⟨.fg, h⟩)
    · exact .inr (.inl ⟨.prod, h⟩)
    · exact .inr (.inl ⟨.cons, h⟩)
    · exact .inl (Host.Outcome.next.inj h).symm
  | cons turn rest =>
    rw [hagenda] at h
    cases turn with
    | word p m cw line => exact .inr (.inr ⟨p, m, cw, line, rest, rfl, h⟩)
    | micro c => exact .inr (.inl ⟨c, h⟩)

/-- An operation that is only issued sets one context's position, or is performed (R203). -/
theorem issue_next {i : Instr} {s t : State} (h : issue i s = .next t) :
    (∃ p, t = s.withFg p) ∨ (∃ p, t = s.withProd p) ∨ (∃ p, t = s.withCons p) ∨ exec i s = .next t := by
  have hfg {p : FgPos} (h : issueFg p s = .next t) : ∃ p, t = s.withFg p := by
    obtain ⟨-, -, -, ht⟩ := issueFg_next h
    exact ⟨p, ht⟩
  have hprod {p : ProdPos} (h : issueProd p s = .next t) : ∃ p, t = s.withProd p := by
    obtain ⟨-, -, ht⟩ := issueProd_next h
    exact ⟨p, ht⟩
  have hcons {p : ConsPos} (h : issueCons p s = .next t) : ∃ p, t = s.withCons p := by
    obtain ⟨-, -, ht⟩ := issueCons_next h
    exact ⟨p, ht⟩
  cases i with
  | rbPush v => exact .inr (.inl (hprod h))
  | rbPop => exact .inr (.inr (.inl (hcons h)))
  | rbLen =>
    unfold issue at h
    cases hport : s.rbPort with
    | prod =>
      rw [hport] at h
      exact .inr (.inl (hprod h))
    | cons =>
      rw [hport] at h
      exact .inr (.inr (.inl (hcons h)))
  | sendByte | sendLine | readByte | rxLen => exact .inl (hfg h)
  | init | irqRx | irqTx | writeTxRegister | readRxRegister | setTxInterruptEnabled | queryFramingError
  | queryOverrun | rxDisable | rxEnable | configureLine | envTxReady | envRxArrive | hostGie =>
    exact .inr (.inr (.inr h))

theorem perform_operationFrame {m : WordMode} {i : Instr} {s t : State} (h : perform m i s = .next t) :
    OperationFrame i s t := by
  cases m with
  | whole => exact exec_operationFrame h
  | issue =>
    rcases issue_next h with ⟨p, rfl⟩ | ⟨p, rfl⟩ | ⟨p, rfl⟩ | h
    · exact .ofUnchanged rfl rfl rfl rfl
    · exact .ofUnchanged rfl rfl rfl rfl
    · exact .ofUnchanged rfl rfl rfl rfl
    · exact exec_operationFrame h

/-- The capacities and the canonical form of the three buffers are kept (R23). -/
structure State.KeepsForm (s t : State) : Prop where
  tx : s.tx.KeepsForm t.tx
  rx : s.rx.KeepsForm t.rx
  rb : s.rb.KeepsForm t.rb

theorem OperationFrame.keepsForm {i : Instr} {s t : State} (h : OperationFrame i s t) : s.KeepsForm t where
  tx := by
    rcases h.tx with htx | ⟨v, -, htx⟩ | ⟨b, -, htx⟩
    · exact htx.keepsForm
    · exact htx ▸ (pushWhole_changedByProducer v s.tx).keepsForm
    · exact htx.keepsForm
  rx := by
    rcases h.rx with hrx | ⟨-, v, hrx⟩
    · exact hrx.keepsForm
    · exact hrx ▸ (pushWhole_changedByProducer v s.rx).keepsForm
  rb := by
    rcases h.rb with hrb | ⟨v, -, hrb⟩
    · exact hrb.keepsForm
    · exact hrb ▸ (pushWhole_changedByProducer v s.rb).keepsForm

theorem microTurn_keepsForm {c : Context} {s t : State} (h : microTurn c s = .next t) :
    s.KeepsForm t ∧ t.gie = s.gie := by
  cases c with
  | fg =>
    obtain ⟨-, -, rfl⟩ := fgTurn_next h
    have hfg := fgMicro_changedByForeground s
    exact ⟨⟨hfg.tx.keepsForm, hfg.rx.storesNothing.keepsForm, hfg.rb ▸ .refl _⟩, hfg.gie⟩
  | prod =>
    obtain ⟨-, -, rfl⟩ := prodTurn_next h
    have hprod := prodMicro_changedByProd s
    exact ⟨⟨hprod.tx ▸ .refl _, hprod.rx ▸ .refl _, hprod.rb.keepsForm⟩, hprod.gie⟩
  | cons =>
    obtain ⟨-, -, rfl⟩ := consTurn_next h
    have hcons := consMicro_changedByCons s
    exact ⟨⟨hcons.tx ▸ .refl _, hcons.rx ▸ .refl _, hcons.rb.storesNothing.keepsForm⟩, hcons.gie⟩

/-- A word at a port keeps the form of the buffers, and changes `gie` only as HOST_GIE at the host's port. -/
theorem deliver_keepsForm {p : Port} {m : WordMode} {cw : Word} {line : List Byte} {s t : State}
    (h : deliver p m cw line s = .next t) :
    s.KeepsForm t ∧ (t.gie = s.gie ∨ p = .host ∧ ∃ b, decode cw = .ok (.hostGie b) ∧ t.gie = b) := by
  rcases deliver_next h with rfl | ⟨i, hdecode, haccepts, hperform⟩
  · exact ⟨⟨.refl _, .refl _, .refl _⟩, .inl rfl⟩
  · have hframe := perform_operationFrame hperform
    obtain ⟨htx, hrx, hrb⟩ := hframe.keepsForm
    refine ⟨⟨htx, hrx, hrb⟩, hframe.gie.imp id ?_⟩
    rintro ⟨b, rfl, hgie⟩
    exact ⟨of_decide_eq_true haccepts, b, hdecode, hgie⟩

/-- What every step keeps: the form of the buffers, and `gie` but for a HOST_GIE word at the host's port. -/
theorem step_keepsForm {s t : State} (h : step s = .next t) :
    s.KeepsForm t ∧ (t.gie = s.gie ∨
      ∃ m cw line rest b, s.agenda = .word .host m cw line :: rest ∧ decode cw = .ok (.hostGie b) ∧ t.gie = b) := by
  rcases step_next h with rfl | ⟨c, h⟩ | ⟨p, m, cw, line, rest, hagenda, h⟩
  · exact ⟨⟨.refl _, .refl _, .refl _⟩, .inl rfl⟩
  · obtain ⟨⟨htx, hrx, hrb⟩, hgie⟩ := microTurn_keepsForm h
    exact ⟨⟨htx, hrx, hrb⟩, .inl hgie⟩
  · obtain ⟨⟨htx, hrx, hrb⟩, hgie⟩ := deliver_keepsForm h
    refine ⟨⟨htx, hrx, hrb⟩, hgie.imp id ?_⟩
    rintro ⟨rfl, b, hdecode, hgie⟩
    exact ⟨m, cw, line, rest, b, hagenda, hdecode, hgie⟩

/-- Settles O50: of all operations HOST_GIE alone writes `gie`, and only the host's port takes it (R84). -/
theorem onlyHostGieChangesTheGlobalEnable : Obligations.OnlyHostGieChangesTheGlobalEnable := by
  intro s t h hne
  obtain ⟨-, hgie⟩ := step_keepsForm h
  exact hgie.resolve_left hne

/-- Settles O53: neither role of a buffer writes its capacity. -/
theorem capacitiesNeverChange : Obligations.CapacitiesNeverChange := by
  intro s t h
  obtain ⟨⟨htx, hrx, hrb⟩, -⟩ := step_keepsForm h
  exact ⟨htx.cap, hrx.cap, hrb.cap⟩

/-- Settles O56: a producer's store keeps the slots strictly rising, and nothing else stores. -/
theorem storagesStayCanonical : Obligations.StoragesStayCanonical := by
  intro s t hwtx hwrx hwrb h
  obtain ⟨⟨htx, hrx, hrb⟩, -⟩ := step_keepsForm h
  exact ⟨htx.wf hwtx, hrx.wf hwrx, hrb.wf hwrb⟩

end Sys2Proof.Machine
end

section
/-! Soundness keeps faults away (R37, R51, R235, U14): a sound state has every index and every snapshot in its range, and
from such a state only a HAL word from outside can be a fault, which the schedule of a sound driver does not hold (log 8).
The power-on state is sound and is as R35 gives it. -/

namespace Sys2Proof.Machine

/-! ## The power-on state (R35, R260) -/

theorem RingBuffer.inRange_iff (B : RingBuffer) : B.inRange = true ↔ B.head < B.n ∧ B.tail < B.n := by
  simp [RingBuffer.inRange]

theorem RingBuffer.shapeOk_powerOn (space : Space) (cap : Capacity) (head tail : Nat) :
    (RingBuffer.powerOn space cap head tail).shapeOk :=
  ⟨Nat.mod_lt head (Nat.succ_pos _), Nat.mod_lt tail (Nat.succ_pos _), Memory.wf_nil, nofun⟩

theorem RingBuffer.shapeOk.inRange {B : RingBuffer} (h : B.shapeOk) : B.inRange = true := by
  obtain ⟨hhead, htail, -, -⟩ := h
  exact B.inRange_iff.mpr ⟨hhead, htail⟩

theorem State.reset_rb_shapeOk : State.reset.rb.shapeOk :=
  ⟨Nat.succ_pos _, Nat.succ_pos _, Memory.wf_nil, nofun⟩

/-- Settles O8: the indices of TX and RX are free values taken mod N (log 2). -/
theorem powerOnStateIsAsTheSpecFixesIt : Obligations.PowerOnStateIsAsTheSpecFixesIt :=
  ⟨rfl, rfl, rfl, rfl, rfl, rfl, rfl, rfl, (RingBuffer.shapeOk_powerOn ..).inRange,
    (RingBuffer.shapeOk_powerOn ..).inRange, State.reset_rb_shapeOk.inRange, rfl, rfl, rfl⟩

/-- Settles O59: the stand-alone buffer is empty with idle contexts, and the driver is as before INIT. -/
theorem powerOnStateIsSound : Obligations.PowerOnStateIsSound := by
  have hfifo : State.reset.rb.fifo := (RingBuffer.contents_emptied State.reset.rb rfl (Nat.succ_pos _)).symm
  have hfresh : State.reset.freshOk := ⟨rfl, rfl, rfl, rfl, rfl, rfl, rfl, rfl, rfl⟩
  have hrb : State.reset.rbSound := ⟨State.reset_rb_shapeOk, hfifo, rfl, rfl⟩
  have hdriver : State.reset.driverSound :=
    ⟨nofun, RingBuffer.shapeOk_powerOn .., RingBuffer.shapeOk_powerOn .., fun _ => hfresh, nofun⟩
  exact ⟨hrb, hdriver⟩

/-! ## A sound state has its indices and snapshots in range (R37, R51) -/

section snapshots
variable {B : RingBuffer}

theorem RingBuffer.pushOk_inRange (hB : B.inRange = true) {p : PushPos} (h : B.pushOk p = true) :
    p.inRange B.n = true := by
  obtain ⟨hhead, htail⟩ := B.inRange_iff.mp hB
  have hnext : advance B.n B.head < B.n := advance_lt _ (Nat.zero_lt_of_lt hhead)
  cases p <;> simp_all [RingBuffer.pushOk, PushPos.inRange]

theorem RingBuffer.popOk_inRange (hB : B.inRange = true) {p : PopPos} (h : B.popOk p = true) :
    p.inRange B.n = true := by
  obtain ⟨hhead, htail⟩ := B.inRange_iff.mp hB
  cases p <;> simp_all [RingBuffer.popOk, PopPos.inRange]

theorem RingBuffer.lenOkByConsumer_inRange {p : LenPos} (h : B.lenOkByConsumer p = true) : p.inRange B.n = true := by
  cases p <;> simp_all [RingBuffer.lenOkByConsumer, LenPos.inRange]

theorem RingBuffer.lenOkByProducer_inRange (hB : B.inRange = true) {p : LenPos} (h : B.lenOkByProducer p = true) :
    p.inRange B.n = true := by
  obtain ⟨hhead, -⟩ := B.inRange_iff.mp hB
  cases p <;> simp_all [RingBuffer.lenOkByProducer, LenPos.inRange]

theorem RingBuffer.sendOk_inRange (hB : B.inRange = true) {p : SendPos} (h : B.sendOk p = true) :
    p.inRange B.n = true := by
  cases p with
  | push q => exact RingBuffer.pushOk_inRange hB h
  | ar1 => rfl

end snapshots

/-- Every index, and every snapshot a context holds, is in its buffer's range (R51). -/
structure State.IndicesInRange (s : State) : Prop where
  tx : s.tx.inRange = true
  rx : s.rx.inRange = true
  rb : s.rb.inRange = true
  fg : fgInRange s = true
  prod : prodInRange s = true
  cons : consInRange s = true

theorem fgInRange_of_fgOk {s : State} (htx : s.tx.inRange = true) (hrx : s.rx.inRange = true)
    (h : s.fgOk = true) : fgInRange s = true := by
  unfold State.fgOk at h
  unfold fgInRange
  cases hfg : s.fg with
  | idle => rfl
  | sendByte p =>
    rw [hfg] at h
    simp [htx, RingBuffer.sendOk_inRange htx h]
  | sl0 hf bytes => simp [htx]
  | sendLine p stage rest =>
    rw [hfg] at h
    simp [htx, RingBuffer.sendOk_inRange htx h]
  | readByte p =>
    rw [hfg] at h
    simp [hrx, RingBuffer.popOk_inRange hrx h]
  | rxLen p =>
    rw [hfg] at h
    simp [hrx, RingBuffer.lenOkByConsumer_inRange h]

theorem prodInRange_of_prodOk {s : State} (hrb : s.rb.inRange = true) (h : s.prodOk = true) :
    prodInRange s = true := by
  unfold State.prodOk at h
  unfold prodInRange
  cases hprod : s.prod with
  | idle => rfl
  | push p =>
    rw [hprod] at h
    simp [hrb, RingBuffer.pushOk_inRange hrb h]
  | len p =>
    rw [hprod] at h
    simp [hrb, RingBuffer.lenOkByProducer_inRange hrb h]

theorem consInRange_of_consOk {s : State} (hrb : s.rb.inRange = true) (h : s.consOk = true) :
    consInRange s = true := by
  unfold State.consOk at h
  unfold consInRange
  cases hcons : s.cons with
  | idle => rfl
  | pop p =>
    rw [hcons] at h
    simp [hrb, RingBuffer.popOk_inRange hrb h]
  | len p =>
    rw [hcons] at h
    simp [hrb, RingBuffer.lenOkByConsumer_inRange h]

/-- Before INIT the foreground is idle and holds no snapshot; after INIT its position is sound. -/
theorem State.driverSound.fgOk {s : State} (h : s.driverSound) : s.fgOk = true := by
  obtain ⟨-, -, -, hfresh, hrunning⟩ := h
  cases hinited : s.inited with
  | false =>
    obtain ⟨-, -, hidle, -⟩ := hfresh hinited
    simp [State.fgOk, hidle]
  | true =>
    obtain ⟨-, -, -, -, -, -, -, -, -, hfg⟩ := hrunning hinited
    exact hfg

theorem State.indicesInRange_of_sound {s : State} (hrb : s.rbSound) (hdriver : s.driverSound) : s.IndicesInRange := by
  have hfg := hdriver.fgOk
  obtain ⟨hrbShape, -, hprod, hcons⟩ := hrb
  obtain ⟨-, htx, hrx, -, -⟩ := hdriver
  exact ⟨htx.inRange, hrx.inRange, hrbShape.inRange, fgInRange_of_fgOk htx.inRange hrx.inRange hfg,
    prodInRange_of_prodOk hrbShape.inRange hprod, consInRange_of_consOk hrbShape.inRange hcons⟩

/-- Taking a turn off the schedule touches no index. -/
theorem State.IndicesInRange.restAgenda {s : State} (h : s.IndicesInRange) : s.restAgenda.IndicesInRange :=
  ⟨h.tx, h.rx, h.rb, h.fg, h.prod, h.cons⟩

/-- Presenting a word's line data touches no index. -/
theorem State.IndicesInRange.present {s : State} (h : s.IndicesInRange) (p : Port) (line : List Byte) :
    (present p line s).IndicesInRange :=
  ⟨h.tx, h.rx, h.rb, h.fg, h.prod, h.cons⟩

/-! ## Outcomes that are no fault -/

/-- The outcome is a next state or a refusal. -/
def NoFault (r : Result) : Prop := ∀ f, r ≠ .fault f

theorem noFault_next (s : State) : NoFault (.next s) := nofun
theorem noFault_refused (e : Refusal) : NoFault (.refused e) := nofun

/-- A guarded outcome is no fault when neither branch that can be taken is one. -/
theorem NoFault.ite {c : Prop} [Decidable c] {r r' : Result} (hr : c → NoFault r) (hr' : ¬c → NoFault r') :
    NoFault (if c then r else r') := by
  split_ifs with h
  · exact hr h
  · exact hr' h

theorem NoFault.andThen {r : Result} (hr : NoFault r) (run : State → State) : NoFault (andThen r run) := by
  cases r with
  | next s => exact noFault_next _
  | fault e => exact absurd rfl (hr e)
  | refused e => exact noFault_refused e

section turns
variable {s : State}

theorem issueFg_noFault {p : FgPos} (h : fgInRange (s.withFg p) = true) : NoFault (issueFg p s) :=
  .ite (fun _ => noFault_refused _) fun _ => .ite (fun _ => noFault_refused _) fun _ =>
    .ite (fun _ => noFault_next _) fun hout => absurd h hout

theorem issueProd_noFault {p : ProdPos} (h : prodInRange (s.withProd p) = true) : NoFault (issueProd p s) :=
  .ite (fun _ => noFault_refused _) fun _ => .ite (fun _ => noFault_next _) fun hout => absurd h hout

theorem issueCons_noFault {p : ConsPos} (h : consInRange (s.withCons p) = true) : NoFault (issueCons p s) :=
  .ite (fun _ => noFault_refused _) fun _ => .ite (fun _ => noFault_next _) fun hout => absurd h hout

theorem fgTurn_noFault (h : fgInRange s = true) : NoFault (fgTurn s) :=
  .ite (fun _ => noFault_refused _) fun _ => .ite (fun _ => noFault_next _) fun hout => absurd h hout

theorem prodTurn_noFault (h : prodInRange s = true) : NoFault (prodTurn s) :=
  .ite (fun _ => noFault_refused _) fun _ => .ite (fun _ => noFault_next _) fun hout => absurd h hout

theorem consTurn_noFault (h : consInRange s = true) : NoFault (consTurn s) :=
  .ite (fun _ => noFault_refused _) fun _ => .ite (fun _ => noFault_next _) fun hout => absurd h hout

theorem takeHandler_noFault {request inRange : Bool} (h : inRange = true) (body : State → State) :
    NoFault (takeHandler request inRange body s) :=
  .ite (fun _ => noFault_refused _) fun _ =>
    .ite (fun _ => .ite (fun _ => noFault_next _) fun hout => absurd h hout) fun _ => noFault_refused _

/-! ## Operations and steps -/

/-- Issuing an operation of a context works with the indices of its buffer and holds no snapshot yet. -/
theorem issue_noFault_of_context {i : Instr} (hs : s.IndicesInRange)
    (hi : i.format = .rb ∨ i.format = .fg ∧ i ≠ .init) : NoFault (issue i s) := by
  cases i with
  | rbPush v => exact issueProd_noFault (by simp [prodInRange, PushPos.inRange, hs.rb])
  | rbPop => exact issueCons_noFault (by simp [consInRange, PopPos.inRange, hs.rb])
  | rbLen =>
    unfold issue
    cases s.rbPort with
    | prod => exact issueProd_noFault (by simp [prodInRange, LenPos.inRange, hs.rb])
    | cons => exact issueCons_noFault (by simp [consInRange, LenPos.inRange, hs.rb])
  | sendByte v => exact issueFg_noFault (by simp [fgInRange, SendPos.inRange, PushPos.inRange, hs.tx])
  | sendLine b => exact issueFg_noFault (by simp [fgInRange, hs.tx])
  | readByte => exact issueFg_noFault (by simp [fgInRange, PopPos.inRange, hs.rx])
  | rxLen => exact issueFg_noFault (by simp [fgInRange, LenPos.inRange, hs.rx])
  | init | irqRx | irqTx | writeTxRegister | readRxRegister | setTxInterruptEnabled | queryFramingError
  | queryOverrun | rxDisable | rxEnable | configureLine | envTxReady | envRxArrive | hostGie =>
    simp [Instr.format] at hi

/-- RB_LEN performed whole is a fault only where its issue is. -/
theorem execRbLen_noFault (h : NoFault (issue .rbLen s)) : NoFault (execRbLen s) := by
  unfold issue at h
  unfold execRbLen
  cases hport : s.rbPort with
  | prod =>
    rw [hport] at h
    exact h.andThen _
  | cons =>
    rw [hport] at h
    exact h.andThen _

theorem exec_noFault {i : Instr} (hs : s.IndicesInRange) (hi : i.format ≠ .hal) : NoFault (exec i s) := by
  cases i with
  | rbPush v => exact (issue_noFault_of_context (i := .rbPush v) hs (.inl rfl)).andThen _
  | rbPop => exact (issue_noFault_of_context (i := .rbPop) hs (.inl rfl)).andThen _
  | rbLen => exact execRbLen_noFault (issue_noFault_of_context hs (.inl rfl))
  | init =>
    exact .ite (fun _ => noFault_refused _) fun _ => .ite (fun _ => noFault_refused _) fun _ =>
      .ite (fun _ => noFault_refused _) fun _ => noFault_next _
  | sendByte v => exact (issue_noFault_of_context (i := .sendByte v) hs (.inr ⟨rfl, nofun⟩)).andThen _
  | sendLine b => exact (issue_noFault_of_context (i := .sendLine b) hs (.inr ⟨rfl, nofun⟩)).andThen _
  | readByte => exact (issue_noFault_of_context (i := .readByte) hs (.inr ⟨rfl, nofun⟩)).andThen _
  | rxLen => exact (issue_noFault_of_context (i := .rxLen) hs (.inr ⟨rfl, nofun⟩)).andThen _
  | irqRx => exact takeHandler_noFault hs.rx _
  | irqTx => exact takeHandler_noFault hs.tx _
  | writeTxRegister | readRxRegister | setTxInterruptEnabled | queryFramingError | queryOverrun | rxDisable
  | rxEnable | configureLine => exact absurd rfl hi
  | envTxReady | envRxArrive => exact .ite (fun _ => noFault_next _) fun _ => noFault_refused _
  | hostGie b => exact noFault_next _

theorem issue_noFault {i : Instr} (hs : s.IndicesInRange) (hi : i.format ≠ .hal) : NoFault (issue i s) := by
  cases i with
  | rbPush | rbPop | rbLen => exact issue_noFault_of_context hs (.inl rfl)
  | sendByte | sendLine | readByte | rxLen => exact issue_noFault_of_context hs (.inr ⟨rfl, nofun⟩)
  | init | irqRx | irqTx | writeTxRegister | readRxRegister | setTxInterruptEnabled | queryFramingError
  | queryOverrun | rxDisable | rxEnable | configureLine | envTxReady | envRxArrive | hostGie =>
    exact exec_noFault hs hi

theorem perform_noFault {i : Instr} (m : WordMode) (hs : s.IndicesInRange) (hi : i.format ≠ .hal) :
    NoFault (perform m i s) := by
  cases m with
  | whole => exact exec_noFault hs hi
  | issue => exact issue_noFault hs hi

/-- Only the collaborator's port takes HAL words (R84). -/
theorem format_ne_hal_of_accepts {p : Port} {i : Instr} (hp : p ≠ .hal) (h : p.accepts i = true) :
    i.format ≠ .hal := by
  rw [← Port.format_of_accepts h]
  cases p with
  | hal => exact absurd rfl hp
  | fg | prod | cons | irq | env | host => nofun

theorem deliver_noFault {p : Port} (hp : p ≠ .hal) (m : WordMode) (cw : Word) (line : List Byte)
    (hs : s.IndicesInRange) : NoFault (deliver p m cw line s) := by
  unfold deliver
  cases decode cw with
  | error e => exact noFault_next _
  | ok i =>
    exact .ite (fun haccepts => perform_noFault m (hs.present p line) (format_ne_hal_of_accepts hp haccepts))
      fun _ => .ite (fun _ => noFault_refused _) fun _ => noFault_next _

theorem takeTurn_noFault {turn : Turn} (hturn : turn.ofStepRelation = true) (hs : s.IndicesInRange) :
    NoFault (takeTurn turn s) := by
  cases turn with
  | word p m cw line => exact deliver_noFault (of_decide_eq_true hturn) m cw line hs
  | micro c =>
    cases c with
    | fg => exact fgTurn_noFault hs.fg
    | prod => exact prodTurn_noFault hs.prod
    | cons => exact consTurn_noFault hs.cons

theorem noTurn_noFault (hs : s.IndicesInRange) : NoFault (noTurn s) :=
  .ite (fun _ => fgTurn_noFault hs.fg) fun _ => .ite (fun _ => prodTurn_noFault hs.prod) fun _ =>
    .ite (fun _ => consTurn_noFault hs.cons) fun _ => noFault_next _

theorem step_noFault (hscheduled : s.scheduled) (hs : s.IndicesInRange) : NoFault (step s) := by
  unfold step
  unfold State.scheduled at hscheduled
  cases hagenda : s.agenda with
  | nil => exact noTurn_noFault hs
  | cons turn rest =>
    rw [hagenda] at hscheduled
    exact takeTurn_noFault (hscheduled turn List.mem_cons_self) hs.restAgenda

end turns

/-- Settles O60: a sound state has every index and snapshot in range, and its schedule holds no HAL word. -/
theorem soundStatesNeverFault : Obligations.SoundStatesNeverFault := by
  intro s f hrb hdriver
  have hscheduled : s.scheduled := hdriver.1
  exact step_noFault hscheduled (State.indicesInRange_of_sound hrb hdriver) f

end Sys2Proof.Machine
end

section
/-! The turns of the stand-alone buffer's two contexts, one micro-step at a time (R203): a turn of a context whose
indices are in range is its micro-step.  The statements about the order of a push's and a pop's writes (R57, R58) and
about the length a role holder sees (R62) follow. -/

namespace Sys2Proof.Machine

/-! ## The tests of PU2 and PO2 (R111, R112) -/

theorem pushMicro_pu2_of_full {B : RingBuffer} {h : Nat} (v : Byte) (hfull : advance B.n h = B.tail) :
    pushMicro (.pu2 v h) B = (B, .done .full) := if_pos hfull

theorem pushMicro_pu2_of_room {B : RingBuffer} {h : Nat} (v : Byte) (hroom : advance B.n h ≠ B.tail) :
    pushMicro (.pu2 v h) B = (B, .more (.pu3 v h B.tail (advance B.n h))) := if_neg hroom

theorem popMicro_po2_of_empty {B : RingBuffer} {h : Nat} (hempty : h = B.tail) :
    popMicro (.po2 h) B = (B, .done .empty) := if_pos hempty

theorem popMicro_po2_of_byte {B : RingBuffer} {h : Nat} (hbyte : h ≠ B.tail) :
    popMicro (.po2 h) B = (B, .more (.po3 h B.tail)) := if_neg hbyte

/-! ## A turn is its micro-step (R203) -/

section turns
variable {s : State} {B : RingBuffer}

theorem prodTurn_of_inRange (hbusy : s.prod ≠ .idle) (hrange : prodInRange s = true) :
    prodTurn s = .next (prodMicro s) := by
  simp [prodTurn, hbusy, hrange]

theorem consTurn_of_inRange (hbusy : s.cons ≠ .idle) (hrange : consInRange s = true) :
    consTurn s = .next (consMicro s) := by
  simp [consTurn, hbusy, hrange]

/-- A turn of a push in progress that goes on. -/
theorem prodTurn_push_more {p p' : PushPos} (hprod : s.prod = .push p) (hB : s.rb.inRange = true)
    (hp : p.inRange s.rb.n = true) (hmicro : pushMicro p s.rb = (B, .more p')) :
    prodTurn s = .next ((s.withRb B).withProd (.push p')) := by
  rw [prodTurn_of_inRange (by simp [hprod]) (by simp [prodInRange, hprod, hB, hp])]
  simp [prodMicro, hprod, hmicro]

/-- The last turn of a push in progress. -/
theorem prodTurn_push_done {p : PushPos} {r : PushResult} (hprod : s.prod = .push p) (hB : s.rb.inRange = true)
    (hp : p.inRange s.rb.n = true) (hmicro : pushMicro p s.rb = (B, .done r)) :
    prodTurn s = .next (((s.withRb B).withProd .idle).answer .prod r.rw) := by
  rw [prodTurn_of_inRange (by simp [hprod]) (by simp [prodInRange, hprod, hB, hp])]
  simp [prodMicro, hprod, hmicro]

/-- A turn of a pop in progress that goes on. -/
theorem consTurn_pop_more {p p' : PopPos} (hcons : s.cons = .pop p) (hB : s.rb.inRange = true)
    (hp : p.inRange s.rb.n = true) (hmicro : popMicro p s.rb = (B, .more p')) :
    consTurn s = .next ((s.withRb B).withCons (.pop p')) := by
  rw [consTurn_of_inRange (by simp [hcons]) (by simp [consInRange, hcons, hB, hp])]
  simp [consMicro, hcons, hmicro]

/-- The last turn of a pop in progress. -/
theorem consTurn_pop_done {p : PopPos} {r : PopResult} (hcons : s.cons = .pop p) (hB : s.rb.inRange = true)
    (hp : p.inRange s.rb.n = true) (hmicro : popMicro p s.rb = (B, .done r)) :
    consTurn s = .next (((s.withRb B).withCons .idle).answer .cons r.rw) := by
  rw [consTurn_of_inRange (by simp [hcons]) (by simp [consInRange, hcons, hB, hp])]
  simp [consMicro, hcons, hmicro]

/-- The last turn of a length in progress at the producer answers the residue of its snapshot (R113 LN2). -/
theorem prodTurn_len_done {h : Nat} (hprod : s.prod = .len (.ln2 h)) (hrange : prodInRange s = true) :
    prodTurn s = .next ((s.withProd .idle).answer .prod (lengthRw (residue s.rb.n h s.rb.tail))) := by
  rw [prodTurn_of_inRange (by simp [hprod]) hrange]
  simp [prodMicro, hprod, lenMicro]

/-- The last turn of a length in progress at the consumer answers the residue of its snapshot (R113 LN2). -/
theorem consTurn_len_done {h : Nat} (hcons : s.cons = .len (.ln2 h)) (hrange : consInRange s = true) :
    consTurn s = .next ((s.withCons .idle).answer .cons (lengthRw (residue s.rb.n h s.rb.tail))) := by
  rw [consTurn_of_inRange (by simp [hcons]) hrange]
  simp [consMicro, hcons, lenMicro]

end turns

/-! ## What a sound stand-alone buffer holds (R57, R62) -/

/-- I3 read as a statement about the slots from tail to head: they hold what was pushed and not yet popped. -/
theorem RingBuffer.fifo.contents_eq {B : RingBuffer} (h : B.fifo) : B.contents = B.pushed.drop B.popped.length := by
  rw [show B.pushed = B.popped ++ B.contents from h, List.drop_left]

/-- The snapshot of a consumer's length in progress is not ahead of the head. -/
theorem State.residue_le_occ_of_consOk {s : State} {h : Nat} (hok : s.consOk = true)
    (hcons : s.cons = .len (.ln2 h)) : residue s.rb.n h s.rb.tail ≤ s.rb.occ := by
  simp only [State.consOk, hcons, RingBuffer.lenOkByConsumer, Bool.and_eq_true, decide_eq_true_eq] at hok
  exact hok.2

/-- The snapshot of a producer's length in progress is the head: only the producer moves it. -/
theorem State.snapshot_eq_head_of_prodOk {s : State} {h : Nat} (hok : s.prodOk = true)
    (hprod : s.prod = .len (.ln2 h)) : h = s.rb.head := by
  simpa [State.prodOk, hprod, RingBuffer.lenOkByProducer] using hok

/-! ## The statements -/

/-- Settles O18: PU1 to PU4 in turn, and I3 of a sound buffer. -/
theorem pushMicroStepsStoreBeforePublishing : Obligations.PushMicroStepsStoreBeforePublishing := by
  refine ⟨fun s v h t next hB hh ht hnext => ?_, fun s ⟨_, hfifo, _, _⟩ => hfifo.contents_eq⟩
  have hpu2 : (PushPos.pu2 v h).inRange s.rb.n = true := decide_eq_true hh
  have hpu3 : (PushPos.pu3 v h t next).inRange s.rb.n = true := by simp [PushPos.inRange, hh, ht, hnext]
  have hpu4 : (PushPos.pu4 v h t next).inRange s.rb.n = true := hpu3
  exact ⟨fun hprod => prodTurn_push_more hprod hB rfl rfl,
    fun hprod hfull => prodTurn_push_done hprod hB hpu2 (pushMicro_pu2_of_full v hfull),
    fun hprod hroom => prodTurn_push_more hprod hB hpu2 (pushMicro_pu2_of_room v hroom),
    fun hprod => prodTurn_push_more hprod hB hpu3 rfl,
    fun hprod => prodTurn_push_done hprod hB hpu4 rfl⟩

/-- Settles O19: PO1 to PO4 in turn. -/
theorem popMicroStepsReadBeforeFreeing : Obligations.PopMicroStepsReadBeforeFreeing := by
  intro s v h t hB hh ht
  have hpo2 : (PopPos.po2 h).inRange s.rb.n = true := decide_eq_true hh
  have hpo3 : (PopPos.po3 h t).inRange s.rb.n = true := by simp [PopPos.inRange, hh, ht]
  have hpo4 : (PopPos.po4 h t v).inRange s.rb.n = true := hpo3
  exact ⟨fun hcons => consTurn_pop_more hcons hB rfl rfl,
    fun hcons hempty => consTurn_pop_done hcons hB hpo2 (popMicro_po2_of_empty hempty),
    fun hcons hbyte => consTurn_pop_more hcons hB hpo2 (popMicro_po2_of_byte hbyte),
    fun hcons => consTurn_pop_more hcons hB hpo3 rfl,
    fun hcons => consTurn_pop_done hcons hB hpo4 rfl⟩

/-- Settles O20: the consumer's snapshot can only lag behind the head, so its length is at most the occupancy; the
producer's snapshot is the head, so its length is the occupancy when LN2 reads the tail. -/
theorem lengthIsConservativeForARoleHolder : Obligations.LengthIsConservativeForARoleHolder := by
  rintro s h ⟨hshape, -, hprodOk, hconsOk⟩
  constructor
  · intro hcons
    exact ⟨residue s.rb.n h s.rb.tail, State.residue_le_occ_of_consOk hconsOk hcons,
      consTurn_len_done hcons (consInRange_of_consOk hshape.inRange hconsOk)⟩
  · intro hprod
    obtain rfl := State.snapshot_eq_head_of_prodOk hprodOk hprod
    obtain ⟨hhead, htail, -, -⟩ := hshape
    exact ⟨s.rb.occ, le_rfl, residue_lt hhead htail,
      prodTurn_len_done hprod (prodInRange_of_prodOk (s.rb.inRange_iff.mpr ⟨hhead, htail⟩) hprodOk)⟩

end Sys2Proof.Machine
end

section
/-! The encoding (R81, R83 to R85): decoder and encoder are inverse to each other, the rows of the opcode table are the
words of the operations, and a port's answer to a word that is none of its own.  The facts run along the four shapes a
row can have: no operand, a byte, one bit, and the flags of ENV_RX_ARRIVE in the opcode. -/

namespace Sys2Proof

/-! ## Decoding what was encoded -/

/-- The opcode byte is one the opcode map knows, and the operand byte is read back as it was written (R83, R84). -/
theorem decode_encode (i : Instr) : decode (encode i) = .ok i := by
  cases i with
  | rbPush v | sendByte v | writeTxRegister v => exact decode_wordOf _ v
  | sendLine b | setTxInterruptEnabled b | hostGie b => cases b <;> exact decode_wordOf _ _
  | envRxArrive f o d => cases f <;> cases o <;> exact decode_wordOf _ d
  | _ => exact decode_wordOf _ 0x00#8

/-- The decoder of a byte stream reads the two bytes of a legal word as the word (R50). -/
theorem decodeBytes_of_decode {w : Word} {i : Instr} (h : decode w = .ok i) (rest : List Byte) :
    decodeBytes (opcOf w :: opdOf w :: rest) = .ok (i, rest) := by
  rw [decode] at h
  simp only [decodeBytes, h]

/-- Settles O1: the word's two bytes are read back, and the opcode map is the encoder's, format by format. -/
theorem decodeOfEncodeIsTheOperation : Obligations.DecodeOfEncodeIsTheOperation :=
  ⟨decode_encode, fun i => decodeBytes_of_decode (decode_encode i)⟩

/-! ## Encoding what was decoded -/

/-- Whatever operation a decoder's answer names, its word has this opcode and this operand byte. -/
def AnswersWord (opc opd : Byte) (r : Except DecodeError Instr) : Prop :=
  ∀ i, r = .ok i → encode i = wordOf opc opd

theorem AnswersWord.ok {opc opd : Byte} {i : Instr} (h : encode i = wordOf opc opd) : AnswersWord opc opd (.ok i) := by
  rintro _ ⟨⟩
  exact h

theorem AnswersWord.noOperand {opc : Byte} {i : Instr} (h : encode i = wordOf opc 0x00#8) (opd : Byte) :
    AnswersWord opc opd (noOperand i opd) := by
  unfold Sys2Proof.noOperand
  split
  next h0 => exact .ok (h0 ▸ h)
  next => exact nofun

theorem AnswersWord.boolOperand {opc : Byte} {i : Bool → Instr} (h : ∀ b, encode (i b) = wordOf opc (boolByte b))
    (opd : Byte) : AnswersWord opc opd (boolOperand i opd) := by
  unfold Sys2Proof.boolOperand
  split
  next h0 => exact .ok (h0 ▸ h false)
  next =>
    split
    next h1 => exact .ok (h1 ▸ h true)
    next => exact nofun

/-- The opcode map of R84, row by row; `split` numbers the cases as `decodeFields` lists the opcodes. -/
theorem decodeFields_answersWord (opc opd : Byte) : AnswersWord opc opd (decodeFields opc opd) := by
  have hopc : opc = BitVec.ofNat 8 opc.toNat := BitVec.eq_of_toNat_eq (by simp)
  unfold decodeFields
  generalize opc.toNat = n at hopc ⊢
  subst hopc
  split
  case h_1 | h_5 | h_11 | h_20 | h_21 | h_22 | h_23 => exact .ok rfl -- a byte
  case h_6 | h_13 | h_24 => exact .boolOperand (fun _ => rfl) opd -- one bit
  case h_25 => exact nofun -- no row
  all_goals exact .noOperand rfl opd

/-- Settles O2: of the two bytes of the word the decoder's map forgets nothing. -/
theorem legalWordIsTheWordOfItsOperation : Obligations.LegalWordIsTheWordOfItsOperation :=
  fun w i h => (decodeFields_answersWord (opcOf w) (opdOf w) i h).trans (wordOf_opcOf_opdOf w)

/-! ## The rows of the opcode table -/

/-- Every word the row covers is the word of an operation with the row's mnemonic. -/
def OpcodeRow.CoversOperations (r : OpcodeRow) : Prop :=
  ∀ w, r.covers w = true → ∃ i, encode i = w ∧ i.mnemonic = r.mnemonic

/-- A row whose value and mask are given byte by byte constrains the two bytes of a word apart. -/
theorem OpcodeRow.covers_bytes_iff {s : String} {c d m n : Byte} {w : Word} :
    OpcodeRow.covers ⟨s, wordOf c d, wordOf m n⟩ w = true ↔ opcOf w &&& m = c ∧ opdOf w &&& n = d := by
  rw [OpcodeRow.covers_iff]
  conv_lhs => rw [← wordOf_opcOf_opdOf w]
  rw [wordOf_and]
  constructor
  · intro h
    exact ⟨by simpa only [opcOf_wordOf] using congrArg opcOf h, by simpa only [opdOf_wordOf] using congrArg opdOf h⟩
  · rintro ⟨rfl, rfl⟩
    rfl

/-- A row with no operand bit free covers the word of its one operation. -/
theorem OpcodeRow.CoversOperations.noOperand (i : Instr) : CoversOperations ⟨i.mnemonic, encode i, 0xFFFF⟩ := by
  intro w h
  have hall : w &&& BitVec.allOnes 16 = encode i := (covers_iff _ w).mp h
  exact ⟨i, hall.symm.trans BitVec.and_allOnes, rfl⟩

/-- A row with the operand byte free covers its operation with any byte. -/
theorem OpcodeRow.CoversOperations.byteOperand {s : String} (c : Byte) (i : Byte → Instr)
    (h : ∀ v, encode (i v) = wordOf c v := by intro; rfl)
    (hm : ∀ v, (i v).mnemonic = s := by intro; rfl) :
    CoversOperations ⟨s, wordOf c 0x00#8, wordOf 0xFF#8 0x00#8⟩ := by
  intro w hw
  obtain ⟨rfl, -⟩ := covers_bytes_iff.mp hw
  refine ⟨i (opdOf w), ?_, hm _⟩
  rw [h, byte_and_ones, wordOf_opcOf_opdOf]

/-- The operand bytes with `opd[7:1]` zero are those of a bit (R83). -/
theorem exists_boolByte : ∀ {v : Byte}, v &&& 0xFE#8 = 0x00#8 → ∃ b, boolByte b = v := by decide

/-- A row with bit 0 free covers its operation with either bit. -/
theorem OpcodeRow.CoversOperations.boolOperand {s : String} (c : Byte) (i : Bool → Instr)
    (h : ∀ b, encode (i b) = wordOf c (boolByte b) := by intro; rfl)
    (hm : ∀ b, (i b).mnemonic = s := by intro; rfl) :
    CoversOperations ⟨s, wordOf c 0x00#8, wordOf 0xFF#8 0xFE#8⟩ := by
  intro w hw
  obtain ⟨rfl, hopd⟩ := covers_bytes_iff.mp hw
  obtain ⟨b, hb⟩ := exists_boolByte hopd
  refine ⟨i b, ?_, hm b⟩
  rw [h, byte_and_ones, hb, wordOf_opcOf_opdOf]

/-- The opcode byte of ENV_RX_ARRIVE carries the two flags (R84). -/
theorem exists_arrivalFlags {c : Byte} (h : c &&& 0xFC#8 = 0x44#8) :
    ∃ f o, ∀ d, encode (.envRxArrive f o d) = wordOf c d := by
  have hflags : ∀ c : Byte, c &&& 0xFC#8 = 0x44#8 →
      ∃ f o : Bool, 0x44#8 + (if f then 0x02#8 else 0x00#8) + (if o then 0x01#8 else 0x00#8) = c := by decide
  obtain ⟨f, o, rfl⟩ := hflags c h
  exact ⟨f, o, fun _ => rfl⟩

/-- The row of ENV_RX_ARRIVE covers the arrivals with any flags and byte. -/
theorem OpcodeRow.CoversOperations.arrival : CoversOperations ⟨"ENV_RX_ARRIVE", 0x4400, 0xFC00⟩ := by
  intro w hw
  change covers ⟨_, wordOf 0x44#8 0x00#8, wordOf 0xFC#8 0x00#8⟩ w = true at hw
  obtain ⟨hopc, -⟩ := covers_bytes_iff.mp hw
  obtain ⟨f, o, hword⟩ := exists_arrivalFlags hopc
  exact ⟨.envRxArrive f o (opdOf w), (hword _).trans (wordOf_opcOf_opdOf w), rfl⟩

theorem opcodeTableRbFg_coversOperations : ∀ r ∈ opcodeTableRbFg, r.CoversOperations := by
  simp only [opcodeTableRbFg, List.forall_mem_cons]
  exact ⟨.byteOperand 0x01#8 .rbPush, .noOperand .rbPop, .noOperand .rbLen, .noOperand .init,
    .byteOperand 0x11#8 .sendByte, .boolOperand 0x12#8 .sendLine, .noOperand .readByte, .noOperand .rxLen, nofun⟩

theorem opcodeTableIrqHal_coversOperations : ∀ r ∈ opcodeTableIrqHal, r.CoversOperations := by
  simp only [opcodeTableIrqHal, List.forall_mem_cons]
  exact ⟨.noOperand .irqRx, .noOperand .irqTx, .byteOperand 0x30#8 .writeTxRegister, .noOperand .readRxRegister,
    .boolOperand 0x32#8 .setTxInterruptEnabled, .noOperand .queryFramingError, .noOperand .queryOverrun,
    .noOperand .rxDisable, .noOperand .rxEnable, .noOperand .configureLine, nofun⟩

theorem opcodeTableEnv_coversOperations : ∀ r ∈ opcodeTableEnv, r.CoversOperations := by
  simp only [opcodeTableEnv, List.forall_mem_cons]
  exact ⟨.noOperand .envTxReady, .arrival, .boolOperand 0x48#8 .hostGie, nofun⟩

theorem opcodeTable_coversOperations : ∀ r ∈ opcodeTable, r.CoversOperations :=
  List.forall_mem_append.2
    ⟨List.forall_mem_append.2 ⟨opcodeTableRbFg_coversOperations, opcodeTableIrqHal_coversOperations⟩,
      opcodeTableEnv_coversOperations⟩

/-- A word that a row covers decodes to an operation with the row's mnemonic (R84). -/
theorem decode_of_covers {r : OpcodeRow} (hr : r ∈ opcodeTable) {w : Word} (hw : r.covers w = true) :
    ∃ i, decode w = .ok i ∧ i.mnemonic = r.mnemonic := by
  obtain ⟨i, rfl, hm⟩ := opcodeTable_coversOperations r hr w hw
  exact ⟨i, decode_encode i, hm⟩

/-- Every operation's word is covered by a row with the operation's mnemonic. -/
theorem encode_rowPattern : ∀ i : Instr, Laws.RowPattern.Statement i
  | .rbPush v => Laws.RowPattern.rbPush v
  | .rbPop => Laws.RowPattern.rbPop
  | .rbLen => Laws.RowPattern.rbLen
  | .init => Laws.RowPattern.init
  | .sendByte v => Laws.RowPattern.sendByte v
  | .sendLine h => Laws.RowPattern.sendLine h
  | .readByte => Laws.RowPattern.readByte
  | .rxLen => Laws.RowPattern.rxLen
  | .irqRx => Laws.RowPattern.irqRx
  | .irqTx => Laws.RowPattern.irqTx
  | .writeTxRegister v => Laws.RowPattern.writeTxRegister v
  | .readRxRegister => Laws.RowPattern.readRxRegister
  | .setTxInterruptEnabled b => Laws.RowPattern.setTxInterruptEnabled b
  | .queryFramingError => Laws.RowPattern.queryFramingError
  | .queryOverrun => Laws.RowPattern.queryOverrun
  | .rxDisable => Laws.RowPattern.rxDisable
  | .rxEnable => Laws.RowPattern.rxEnable
  | .configureLine => Laws.RowPattern.configureLine
  | .envTxReady => Laws.RowPattern.envTxReady
  | .envRxArrive f o d => Laws.RowPattern.envRxArrive f o d
  | .hostGie b => Laws.RowPattern.hostGie b

/-- A word that no row covers is rejected: were it legal, it would be its operation's word, which a row covers. -/
theorem decode_of_uncovered {w : Word} (h : ∀ r ∈ opcodeTable, r.covers w = false) : ∃ e, decode w = .error e := by
  cases hd : decode w with
  | error e => exact ⟨e, rfl⟩
  | ok i =>
    obtain ⟨r, hr, -, hcovers⟩ := encode_rowPattern i
    rw [legalWordIsTheWordOfItsOperation w i hd, h r hr] at hcovers
    cases hcovers

theorem opcodeTable_mnemonics_distinct : opcodeTable.Pairwise (fun r q => r.mnemonic ≠ q.mnemonic) := by decide

/-- Settles O3: two rows that cover one word would both spell the mnemonic of the operation it decodes to, and no two
rows have the same mnemonic. -/
theorem legalWordsAreThoseOfTheTable : Obligations.LegalWordsAreThoseOfTheTable := by
  refine ⟨fun w => ⟨fun r hr hw => decode_of_covers hr hw, decode_of_uncovered⟩,
    opcodeTable_mnemonics_distinct.imp_of_mem fun {r q} hr hq hne w ⟨hrw, hqw⟩ => hne ?_⟩
  obtain ⟨i, hi, hmr⟩ := decode_of_covers hr hrw
  obtain ⟨j, hj, hmq⟩ := decode_of_covers hq hqw
  obtain rfl : i = j := Except.ok.inj (hi.symm.trans hj)
  exact hmr.symm.trans hmq

/-- Settles O4: each word is split into its bytes and looked up. -/
theorem wordsWrittenOutDecode : Obligations.WordsWrittenOutDecode := by
  unfold Obligations.WordsWrittenOutDecode
  decide

end Sys2Proof

namespace Sys2Proof.Machine

/-! ## Words that are none of the port's -/

/-- A step whose first turn is a word delivers it. -/
theorem step_word {p : Port} {m : WordMode} {cw : Word} {line : List Byte} {rest : List Turn} {s : State}
    (h : s.agenda = .word p m cw line :: rest) : step s = deliver p m cw line { s with agenda := rest } := by
  unfold step State.restAgenda
  rw [h]
  rfl

/-- Settles O5: no row means no operation (O3), and the port's answer is settled by format and role (R85, R237). -/
theorem illegalWordIsAnsweredAndChangesNothing : Obligations.IllegalWordIsAnsweredAndChangesNothing := by
  intro p m cw line rest s h
  rw [step_word h]
  refine ⟨fun hrows => ?_, fun i hd hp hf => deliver_otherFormat hd hp hf m line _,
    fun i hd ha hport => deliver_wrongContext hd ((p.wrongContext_iff i).2 ⟨ha, hport.symm⟩) m line _⟩
  obtain ⟨e, hd⟩ := decode_of_uncovered hrows
  exact deliver_illegal hd p m line _

end Sys2Proof.Machine
end

section
/-! The stand-alone buffer under interleaving (R110, R118): what a micro-step of a role does to a buffer whose operation
in progress is sound is one of three moves of a producer or two of a consumer, and each move keeps the shape, the FIFO
property and the conditions on the other role's operation (R57, R58, R62).  Soundness of the stand-alone buffer, kept by
every step, follows. -/

namespace Sys2Proof.Machine

/-! ## The moves of the two roles -/

/-- PU4: the byte in slot `head` is published. -/
def RingBuffer.published (B : RingBuffer) : RingBuffer :=
  { B with head := advance B.n B.head, pushed := B.pushed ++ [B.readSlot B.head] }

/-- What a producer's micro-step does to the buffer: nothing, a store into the free slot, or,
with room, its publishing. -/
inductive RingBuffer.ProducerMove (B : RingBuffer) : RingBuffer → Prop
  | stay : ProducerMove B B
  | store (v : Byte) : ProducerMove B (B.writeSlot B.head v)
  | publish (hroom : advance B.n B.head ≠ B.tail) : ProducerMove B B.published

/-- What a consumer's micro-step does to the buffer: nothing, or the oldest byte is taken out. -/
inductive RingBuffer.ConsumerMove (B : RingBuffer) : RingBuffer → Prop
  | stay : ConsumerMove B B
  | release (hbyte : B.head ≠ B.tail) : ConsumerMove B B.popped1

section positions
variable {B : RingBuffer}

theorem RingBuffer.pushOk_pu3_iff {v : Byte} {h t next : Nat} :
    B.pushOk (.pu3 v h t next) = true ↔ h = B.head ∧ next = advance B.n h ∧ next ≠ B.tail ∧ t < B.n := by
  simp [RingBuffer.pushOk, and_assoc]

theorem RingBuffer.pushOk_pu4_iff {v : Byte} {h t next : Nat} :
    B.pushOk (.pu4 v h t next) = true ↔
      h = B.head ∧ next = advance B.n h ∧ next ≠ B.tail ∧ t < B.n ∧ B.readSlot h = v := by
  simp [RingBuffer.pushOk, and_assoc]

theorem RingBuffer.popOk_po2_iff {h : Nat} :
    B.popOk (.po2 h) = true ↔ h < B.n ∧ residue B.n h B.tail ≤ B.occ := by
  simp [RingBuffer.popOk]

theorem RingBuffer.popOk_po3_iff {h t : Nat} :
    B.popOk (.po3 h t) = true ↔ h < B.n ∧ t = B.tail ∧ B.head ≠ B.tail := by
  simp [RingBuffer.popOk, and_assoc]

theorem RingBuffer.popOk_po4_iff {h t : Nat} {v : Byte} :
    B.popOk (.po4 h t v) = true ↔ h < B.n ∧ t = B.tail ∧ B.head ≠ B.tail ∧ B.readSlot t = v := by
  simp [RingBuffer.popOk, and_assoc]

end positions

/-! ## The micro-steps of a sound operation are moves -/

section micro
variable {B : RingBuffer}

theorem pushMicro_producerMove {p : PushPos} (hp : B.pushOk p = true) : B.ProducerMove (pushMicro p B).1 := by
  cases p with
  | pu1 v => exact .stay
  | pu2 v h =>
    by_cases hfull : advance B.n h = B.tail
    · rw [pushMicro_pu2_of_full v hfull]
      exact .stay
    · rw [pushMicro_pu2_of_room v hfull]
      exact .stay
  | pu3 v h t next =>
    obtain ⟨rfl, -⟩ := RingBuffer.pushOk_pu3_iff.mp hp
    exact .store v
  | pu4 v h t next =>
    obtain ⟨rfl, rfl, hroom, -, rfl⟩ := RingBuffer.pushOk_pu4_iff.mp hp
    exact .publish hroom

/-- A push that goes on stays sound (R57): PU2 takes up the room it saw, PU3 has put the byte in its slot. -/
theorem pushMicro_pushOk {p p' : PushPos} {B' : RingBuffer} (hshape : B.shapeOk) (hp : B.pushOk p = true)
    (hmicro : pushMicro p B = (B', .more p')) : B'.pushOk p' = true := by
  obtain ⟨-, htail, -, -⟩ := hshape
  cases p with
  | pu1 v =>
    cases hmicro
    exact decide_eq_true rfl
  | pu2 v h =>
    by_cases hfull : advance B.n h = B.tail
    · rw [pushMicro_pu2_of_full v hfull] at hmicro
      cases hmicro
    · rw [pushMicro_pu2_of_room v hfull] at hmicro
      cases hmicro
      exact RingBuffer.pushOk_pu3_iff.mpr ⟨of_decide_eq_true hp, rfl, hfull, htail⟩
  | pu3 v h t next =>
    cases hmicro
    obtain ⟨hhead, hnext, hroom, ht⟩ := RingBuffer.pushOk_pu3_iff.mp hp
    exact RingBuffer.pushOk_pu4_iff.mpr ⟨hhead, hnext, hroom, ht, B.readSlot_writeSlot_same h v⟩
  | pu4 v h t next => cases hmicro

theorem popMicro_consumerMove {p : PopPos} (hp : B.popOk p = true) : B.ConsumerMove (popMicro p B).1 := by
  cases p with
  | po1 => exact .stay
  | po2 h =>
    by_cases hempty : h = B.tail
    · rw [popMicro_po2_of_empty hempty]
      exact .stay
    · rw [popMicro_po2_of_byte hempty]
      exact .stay
  | po3 h t => exact .stay
  | po4 h t v =>
    obtain ⟨-, rfl, hbyte, rfl⟩ := RingBuffer.popOk_po4_iff.mp hp
    exact .release hbyte

/-- A snapshot that is not ahead of the head and differs from the tail shows a byte (R62). -/
theorem RingBuffer.head_ne_tail_of_snapshot {h : Nat} (htail : B.tail < B.n) (hh : h < B.n)
    (hle : residue B.n h B.tail ≤ B.occ) (hne : h ≠ B.tail) : B.head ≠ B.tail := by
  intro hempty
  have hocc : B.occ = 0 := (residue_eq_zero (hempty ▸ htail) htail).mpr hempty
  exact hne ((residue_eq_zero hh htail).mp (Nat.le_zero.mp (hocc ▸ hle)))

/-- A pop that goes on stays sound (R58): PO2 has seen a byte, PO3 has read it. -/
theorem popMicro_popOk {p p' : PopPos} {B' : RingBuffer} (hshape : B.shapeOk) (hp : B.popOk p = true)
    (hmicro : popMicro p B = (B', .more p')) : B'.popOk p' = true := by
  obtain ⟨hhead, htail, -, -⟩ := hshape
  cases p with
  | po1 =>
    cases hmicro
    exact RingBuffer.popOk_po2_iff.mpr ⟨hhead, le_rfl⟩
  | po2 h =>
    obtain ⟨hh, hle⟩ := RingBuffer.popOk_po2_iff.mp hp
    by_cases hempty : h = B.tail
    · rw [popMicro_po2_of_empty hempty] at hmicro
      cases hmicro
    · rw [popMicro_po2_of_byte hempty] at hmicro
      cases hmicro
      exact RingBuffer.popOk_po3_iff.mpr ⟨hh, rfl, B.head_ne_tail_of_snapshot htail hh hle hempty⟩
  | po3 h t =>
    cases hmicro
    obtain ⟨hh, ht, hbyte⟩ := RingBuffer.popOk_po3_iff.mp hp
    exact RingBuffer.popOk_po4_iff.mpr ⟨hh, ht, hbyte, rfl⟩
  | po4 h t v => cases hmicro

/-- LN1 of the producer takes the head for its snapshot. -/
theorem lenMicro_lenOkByProducer {p p' : LenPos} (hmicro : lenMicro p B = .more p') : B.lenOkByProducer p' = true := by
  cases p with
  | ln1 =>
    cases hmicro
    exact decide_eq_true rfl
  | ln2 h => cases hmicro

/-- LN1 of the consumer takes the head for its snapshot. -/
theorem lenMicro_lenOkByConsumer {p p' : LenPos} (hhead : B.head < B.n) (hmicro : lenMicro p B = .more p') :
    B.lenOkByConsumer p' = true := by
  cases p with
  | ln1 =>
    cases hmicro
    exact RingBuffer.popOk_po2_iff.mpr ⟨hhead, le_rfl⟩
  | ln2 h => cases hmicro

end micro

/-! ## The moves keep the buffer and the other role's operation sound -/

section moves
variable {B B' : RingBuffer}

theorem RingBuffer.ProducerMove.shapeOk (hmove : B.ProducerMove B') (hshape : B.shapeOk) : B'.shapeOk := by
  obtain ⟨hhead, htail, hwf, hbound⟩ := hshape
  cases hmove with
  | stay => exact ⟨hhead, htail, hwf, hbound⟩
  | store v => exact ⟨hhead, htail, Memory.wf_write hwf B.head v, Memory.bound_write hbound hhead⟩
  | publish hroom => exact ⟨advance_lt B.head (Nat.zero_lt_of_lt hhead), htail, hwf, hbound⟩

theorem RingBuffer.ConsumerMove.shapeOk (hmove : B.ConsumerMove B') (hshape : B.shapeOk) : B'.shapeOk := by
  obtain ⟨hhead, htail, hwf, hbound⟩ := hshape
  cases hmove with
  | stay => exact ⟨hhead, htail, hwf, hbound⟩
  | release hbyte => exact ⟨hhead, advance_lt B.tail (Nat.zero_lt_of_lt htail), hwf, hbound⟩

theorem RingBuffer.contents_published (hhead : B.head < B.n) (htail : B.tail < B.n)
    (hroom : advance B.n B.head ≠ B.tail) : B.published.contents = B.contents ++ [B.readSlot B.head] :=
  RingBuffer.contents_publish hhead htail hroom rfl rfl rfl fun _ => rfl

/-- I3 under the producer: a store is not seen, and what is published stands last in the contents. -/
theorem RingBuffer.ProducerMove.fifo (hmove : B.ProducerMove B') (hshape : B.shapeOk) (hfifo : B.fifo) : B'.fifo := by
  obtain ⟨hhead, htail, -, -⟩ := hshape
  cases hmove with
  | stay => exact hfifo
  | store v => exact hfifo.trans (congrArg (B.popped ++ ·) (B.contents_writeSlot_head v hhead htail).symm)
  | publish hroom =>
    calc B.pushed ++ [B.readSlot B.head]
        = B.popped ++ B.contents ++ [B.readSlot B.head] := by rw [show B.pushed = _ from hfifo]
      _ = B.popped ++ B.published.contents := by
          rw [RingBuffer.contents_published hhead htail hroom, List.append_assoc]

/-- I3 under the consumer: the first byte of the contents is the next one popped. -/
theorem RingBuffer.ConsumerMove.fifo (hmove : B.ConsumerMove B') (hshape : B.shapeOk) (hfifo : B.fifo) : B'.fifo := by
  obtain ⟨hhead, htail, -, -⟩ := hshape
  cases hmove with
  | stay => exact hfifo
  | release hbyte =>
    calc B.pushed
        = B.popped ++ B.contents := hfifo
      _ = (B.popped ++ [B.readSlot B.tail]) ++ B.popped1.contents := by
          rw [B.contents_popped1 hhead htail hbyte, List.append_assoc, List.singleton_append]

/-- A consumer's snapshot stays behind the head, which moves only away from the tail (R62). -/
theorem RingBuffer.ProducerMove.occ_le (hmove : B.ProducerMove B') (hshape : B.shapeOk) : B.occ ≤ B'.occ := by
  obtain ⟨hhead, htail, -, -⟩ := hshape
  cases hmove with
  | stay => exact le_rfl
  | store v => exact le_rfl
  | publish hroom =>
    have hocc : B.published.occ = B.occ + 1 := residue_advance_head hhead htail hroom
    exact hocc ▸ Nat.le_succ _

theorem RingBuffer.ProducerMove.n_eq (hmove : B.ProducerMove B') : B'.n = B.n := by cases hmove <;> rfl

theorem RingBuffer.ProducerMove.tail_eq (hmove : B.ProducerMove B') : B'.tail = B.tail := by cases hmove <;> rfl

/-- The producer never empties a buffer. -/
theorem RingBuffer.ProducerMove.head_ne_tail (hmove : B.ProducerMove B') (hbyte : B.head ≠ B.tail) :
    B'.head ≠ B'.tail := by
  cases hmove with
  | stay => exact hbyte
  | store v => exact hbyte
  | publish hroom => exact hroom

/-- The producer stores only into the free slot, so a consumer still reads its oldest byte (R58). -/
theorem RingBuffer.ProducerMove.readSlot_tail (hmove : B.ProducerMove B') (hbyte : B.head ≠ B.tail) :
    B'.readSlot B.tail = B.readSlot B.tail := by
  cases hmove with
  | stay => rfl
  | store v => exact B.readSlot_writeSlot_other v hbyte.symm
  | publish hroom => rfl

/-- A pop in progress stays sound whatever the producer does. -/
theorem RingBuffer.ProducerMove.popOk (hmove : B.ProducerMove B') (hshape : B.shapeOk) {p : PopPos}
    (hp : B.popOk p = true) : B'.popOk p = true := by
  cases p with
  | po1 => rfl
  | po2 h =>
    obtain ⟨hh, hle⟩ := RingBuffer.popOk_po2_iff.mp hp
    rw [RingBuffer.popOk_po2_iff, hmove.n_eq, hmove.tail_eq]
    exact ⟨hh, hle.trans (hmove.occ_le hshape)⟩
  | po3 h t =>
    obtain ⟨hh, ht, hbyte⟩ := RingBuffer.popOk_po3_iff.mp hp
    rw [RingBuffer.popOk_po3_iff, hmove.n_eq]
    exact ⟨hh, ht.trans hmove.tail_eq.symm, hmove.head_ne_tail hbyte⟩
  | po4 h t v =>
    obtain ⟨hh, rfl, hbyte, hv⟩ := RingBuffer.popOk_po4_iff.mp hp
    rw [RingBuffer.popOk_po4_iff, hmove.n_eq]
    exact ⟨hh, hmove.tail_eq.symm, hmove.head_ne_tail hbyte, (hmove.readSlot_tail hbyte).trans hv⟩

/-- A length in progress at the consumer stays sound whatever the producer does: at LN2 its snapshot has the condition
of a pop's at PO2 (R62). -/
theorem RingBuffer.ProducerMove.lenOkByConsumer (hmove : B.ProducerMove B') (hshape : B.shapeOk) {p : LenPos}
    (hp : B.lenOkByConsumer p = true) : B'.lenOkByConsumer p = true := by
  cases p with
  | ln1 => rfl
  | ln2 h => exact hmove.popOk hshape (p := .po2 h) hp

theorem RingBuffer.ConsumerMove.n_eq (hmove : B.ConsumerMove B') : B'.n = B.n := by cases hmove <;> rfl

theorem RingBuffer.ConsumerMove.head_eq (hmove : B.ConsumerMove B') : B'.head = B.head := by cases hmove <;> rfl

theorem RingBuffer.ConsumerMove.readSlot_eq (hmove : B.ConsumerMove B') (a : Nat) : B'.readSlot a = B.readSlot a := by
  cases hmove <;> rfl

/-- The consumer only gives room: the slot a producer found free is not the next tail (R57). -/
theorem RingBuffer.ConsumerMove.room (hmove : B.ConsumerMove B') (hshape : B.shapeOk)
    (hroom : advance B.n B.head ≠ B.tail) : advance B.n B.head ≠ B'.tail := by
  obtain ⟨hhead, htail, -, -⟩ := hshape
  cases hmove with
  | stay => exact hroom
  | release hbyte => exact fun hnext => hbyte (advance_inj hhead htail hnext)

/-- A push in progress stays sound whatever the consumer does. -/
theorem RingBuffer.ConsumerMove.pushOk (hmove : B.ConsumerMove B') (hshape : B.shapeOk) {p : PushPos}
    (hp : B.pushOk p = true) : B'.pushOk p = true := by
  cases p with
  | pu1 v => rfl
  | pu2 v h => exact decide_eq_true ((of_decide_eq_true hp).trans hmove.head_eq.symm)
  | pu3 v h t next =>
    obtain ⟨rfl, rfl, hroom, ht⟩ := RingBuffer.pushOk_pu3_iff.mp hp
    rw [RingBuffer.pushOk_pu3_iff, hmove.n_eq, hmove.head_eq]
    exact ⟨rfl, rfl, hmove.room hshape hroom, ht⟩
  | pu4 v h t next =>
    obtain ⟨rfl, rfl, hroom, ht, hv⟩ := RingBuffer.pushOk_pu4_iff.mp hp
    rw [RingBuffer.pushOk_pu4_iff, hmove.n_eq, hmove.head_eq, hmove.readSlot_eq]
    exact ⟨rfl, rfl, hmove.room hshape hroom, ht, hv⟩

/-- A length in progress at the producer stays sound whatever the consumer does. -/
theorem RingBuffer.ConsumerMove.lenOkByProducer (hmove : B.ConsumerMove B') {p : LenPos}
    (hp : B.lenOkByProducer p = true) : B'.lenOkByProducer p = true := by
  cases p with
  | ln1 => rfl
  | ln2 h => exact decide_eq_true ((of_decide_eq_true hp).trans hmove.head_eq.symm)

end moves

/-! ## The two contexts of the stand-alone buffer -/

section contexts
variable {s t : State}

/-- The producer's context has made a move and stands at a sound position. -/
theorem State.rbSound.producerMove (hs : s.rbSound) {B : RingBuffer} (hmove : s.rb.ProducerMove B) {p : ProdPos}
    (hp : ((s.withRb B).withProd p).prodOk = true) : ((s.withRb B).withProd p).rbSound := by
  obtain ⟨hshape, hfifo, -, hcons⟩ := hs
  have hcons' : ((s.withRb B).withProd p).consOk = true := by
    unfold State.consOk at hcons ⊢
    simp only [State.withProd_cons, State.withProd_rb, State.withRb_cons, State.withRb_rb]
    cases hpos : s.cons with
    | idle => rfl
    | pop q =>
      rw [hpos] at hcons
      exact hmove.popOk hshape hcons
    | len q =>
      rw [hpos] at hcons
      exact hmove.lenOkByConsumer hshape hcons
  exact ⟨hmove.shapeOk hshape, hmove.fifo hshape hfifo, hp, hcons'⟩

/-- The consumer's context has made a move and stands at a sound position. -/
theorem State.rbSound.consumerMove (hs : s.rbSound) {B : RingBuffer} (hmove : s.rb.ConsumerMove B) {p : ConsPos}
    (hp : ((s.withRb B).withCons p).consOk = true) : ((s.withRb B).withCons p).rbSound := by
  obtain ⟨hshape, hfifo, hprod, -⟩ := hs
  have hprod' : ((s.withRb B).withCons p).prodOk = true := by
    unfold State.prodOk at hprod ⊢
    simp only [State.withCons_prod, State.withCons_rb, State.withRb_prod, State.withRb_rb]
    cases hpos : s.prod with
    | idle => rfl
    | push q =>
      rw [hpos] at hprod
      exact hmove.pushOk hshape hprod
    | len q =>
      rw [hpos] at hprod
      exact hmove.lenOkByProducer hprod
  exact ⟨hmove.shapeOk hshape, hmove.fifo hshape hfifo, hprod', hp⟩

theorem prodMicro_rbSound (hs : s.rbSound) : (prodMicro s).rbSound := by
  have ⟨hshape, _, hprod, _⟩ := hs
  unfold State.prodOk at hprod
  unfold prodMicro
  cases hpos : s.prod with
  | idle => exact hs
  | push p =>
    rw [hpos] at hprod
    have hmove := pushMicro_producerMove hprod
    dsimp only
    cases hmicro : pushMicro p s.rb with
    | mk B progress =>
      rw [hmicro] at hmove
      cases progress with
      | more p' => exact hs.producerMove hmove (pushMicro_pushOk hshape hprod hmicro)
      | done r => exact hs.producerMove hmove (p := .idle) rfl
  | len p =>
    dsimp only
    cases hmicro : lenMicro p s.rb with
    | more p' => exact hs.producerMove .stay (p := .len p') (lenMicro_lenOkByProducer hmicro)
    | done k => exact hs.producerMove .stay (p := .idle) rfl

theorem consMicro_rbSound (hs : s.rbSound) : (consMicro s).rbSound := by
  have ⟨hshape, _, _, hcons⟩ := hs
  unfold State.consOk at hcons
  unfold consMicro
  cases hpos : s.cons with
  | idle => exact hs
  | pop p =>
    rw [hpos] at hcons
    have hmove := popMicro_consumerMove hcons
    dsimp only
    cases hmicro : popMicro p s.rb with
    | mk B progress =>
      rw [hmicro] at hmove
      cases progress with
      | more p' => exact hs.consumerMove hmove (popMicro_popOk hshape hcons hmicro)
      | done r => exact hs.consumerMove hmove (p := .idle) rfl
  | len p =>
    dsimp only
    cases hmicro : lenMicro p s.rb with
    | more p' =>
      obtain ⟨hhead, -, -, -⟩ := hshape
      exact hs.consumerMove .stay (p := .len p') (lenMicro_lenOkByConsumer hhead hmicro)
    | done k => exact hs.consumerMove .stay (p := .idle) rfl

/-- Issuing an operation at the producer port: no snapshot is held yet. -/
theorem issueProd_rbSound {p : ProdPos} (hs : s.rbSound) (hp : (s.withProd p).prodOk = true)
    (h : issueProd p s = .next t) : t.rbSound := by
  obtain ⟨-, -, rfl⟩ := issueProd_next h
  exact hs.producerMove .stay hp

/-- Issuing an operation at the consumer port: no snapshot is held yet. -/
theorem issueCons_rbSound {p : ConsPos} (hs : s.rbSound) (hp : (s.withCons p).consOk = true)
    (h : issueCons p s = .next t) : t.rbSound := by
  obtain ⟨-, -, rfl⟩ := issueCons_next h
  exact hs.consumerMove .stay hp

theorem runProd_rbSound (k : Nat) (hs : s.rbSound) : (runProd k s).rbSound :=
  runProd_keeps (P := State.rbSound) (fun _ hu _ => prodMicro_rbSound hu) k s hs

theorem runCons_rbSound (k : Nat) (hs : s.rbSound) : (runCons k s).rbSound :=
  runCons_keeps (P := State.rbSound) (fun _ hu _ => consMicro_rbSound hu) k s hs

end contexts

/-! ## The driver and the collaborator leave the stand-alone buffer alone (R203) -/

/-- The stand-alone buffer and its two contexts are as before. -/
structure State.KeepsStandAlone (s t : State) : Prop where
  rb : t.rb = s.rb
  prod : t.prod = s.prod
  cons : t.cons = s.cons

section frames
variable {s t u : State}

theorem State.KeepsStandAlone.refl (s : State) : s.KeepsStandAlone s := ⟨rfl, rfl, rfl⟩

theorem State.KeepsStandAlone.trans (h : s.KeepsStandAlone t) (h' : t.KeepsStandAlone u) : s.KeepsStandAlone u :=
  ⟨h'.rb.trans h.rb, h'.prod.trans h.prod, h'.cons.trans h.cons⟩

theorem State.KeepsStandAlone.withFg (h : s.KeepsStandAlone t) (p : FgPos) : s.KeepsStandAlone (t.withFg p) :=
  ⟨h.rb, h.prod, h.cons⟩

theorem State.KeepsStandAlone.answer (h : s.KeepsStandAlone t) (p : Port) (rw : Word) :
    s.KeepsStandAlone (t.answer p rw) :=
  ⟨h.rb, h.prod, h.cons⟩

theorem State.KeepsStandAlone.rbSound (h : s.KeepsStandAlone t) (hs : s.rbSound) : t.rbSound := by
  obtain ⟨hrb, hprod, hcons⟩ := h
  unfold State.rbSound State.prodOk State.consOk at hs ⊢
  rw [hrb, hprod, hcons]
  exact hs

theorem sendMicro_keepsStandAlone (p : SendPos) (s : State) : s.KeepsStandAlone (sendMicro p s).1 := by
  cases p with
  | ar1 => exact ⟨rfl, rfl, rfl⟩
  | push q =>
    dsimp only [sendMicro]
    rcases pushMicro q s.tx with ⟨B, q' | _ | _⟩ <;> exact ⟨rfl, rfl, rfl⟩

theorem fgMicro_keepsStandAlone (s : State) : s.KeepsStandAlone (fgMicro s) := by
  unfold fgMicro
  cases s.fg with
  | idle => exact .refl s
  | sendByte p =>
    have hp := sendMicro_keepsStandAlone p s
    dsimp only
    generalize sendMicro p s = r at hp ⊢
    rcases r with ⟨s', p' | r⟩
    · exact hp.withFg _
    · exact (hp.withFg _).answer _ _
  | sl0 hf bytes => cases hf <;> exact ⟨rfl, rfl, rfl⟩
  | sendLine p stage rest =>
    have hp := sendMicro_keepsStandAlone p s
    dsimp only
    generalize sendMicro p s = r at hp ⊢
    rcases r with ⟨s', p' | r⟩
    · exact hp.withFg _
    · dsimp only
      cases lineNext stage rest with
      | some x => exact hp.withFg _
      | none => exact (hp.withFg _).answer _ _
  | readByte p =>
    dsimp only
    rcases popMicro p s.rx with ⟨B, p' | r⟩ <;> exact ⟨rfl, rfl, rfl⟩
  | rxLen p =>
    dsimp only
    cases lenMicro p s.rx <;> exact ⟨rfl, rfl, rfl⟩

/-- A foreground operation performed whole is its issue and its micro-steps in a row (R87). -/
theorem andThen_runFg_keepsStandAlone {p : FgPos} {k : Nat} (h : andThen (issueFg p s) (runFg k) = .next t) :
    s.KeepsStandAlone t := by
  obtain ⟨u, hissue, rfl⟩ := andThen_next h
  obtain ⟨-, -, -, rfl⟩ := issueFg_next hissue
  exact runFg_keeps (P := s.KeepsStandAlone) (fun u hu _ => hu.trans (fgMicro_keepsStandAlone u)) k _
    ((State.KeepsStandAlone.refl s).withFg p)

/-- A primitive that only reads the collaborator, with or without a sample waiting. -/
theorem halReads_keepsStandAlone (s : State) :
    s.KeepsStandAlone (halReadRxRegister s).2 ∧ s.KeepsStandAlone (halQueryFramingError s).2 ∧
    s.KeepsStandAlone (halQueryOverrun s).2 := by
  unfold halReadRxRegister halQueryFramingError halQueryOverrun
  cases s.hal.rxSample <;> exact ⟨⟨rfl, rfl, rfl⟩, ⟨rfl, rfl, rfl⟩, ⟨rfl, rfl, rfl⟩⟩

theorem irqRxBody_keepsStandAlone (s : State) : s.KeepsStandAlone (irqRxBody s) := by
  have hfinish (x : Sample) (u : State) : u.KeepsStandAlone (irqRxFinish x u) := by
    obtain ⟨data, fe, ovr⟩ := x
    cases fe <;> cases ovr <;> exact ⟨rfl, rfl, rfl⟩
  obtain ⟨-, hframing, -⟩ := halReads_keepsStandAlone s
  obtain ⟨-, -, hoverrun⟩ := halReads_keepsStandAlone (halQueryFramingError s).2
  obtain ⟨hread, -, -⟩ := halReads_keepsStandAlone (halQueryOverrun (halQueryFramingError s).2).2
  rw [irqRxBody_eq]
  exact ((hframing.trans hoverrun).trans hread).trans (hfinish _ _)

theorem irqTxBody_keepsStandAlone (s : State) : s.KeepsStandAlone (irqTxBody s) := by
  unfold irqTxBody
  rcases popWhole s.tx with ⟨B, v | _⟩
  · dsimp only
    split_ifs <;> exact ⟨rfl, rfl, rfl⟩
  · exact ⟨rfl, rfl, rfl⟩

theorem exec_keepsStandAlone {i : Instr} (hi : i.format ≠ .rb) (h : exec i s = .next t) : s.KeepsStandAlone t := by
  cases i with
  | rbPush | rbPop | rbLen => exact absurd rfl hi
  | init =>
    obtain rfl := execInit_next h
    exact ⟨rfl, rfl, rfl⟩
  | sendByte | sendLine | readByte | rxLen => exact andThen_runFg_keepsStandAlone h
  | irqRx =>
    obtain ⟨-, -, -, -, rfl⟩ := takeHandler_next h
    exact irqRxBody_keepsStandAlone s
  | irqTx =>
    obtain ⟨-, -, -, -, rfl⟩ := takeHandler_next h
    exact irqTxBody_keepsStandAlone s
  | writeTxRegister v =>
    change execWriteTxRegister v s = .next t at h
    unfold execWriteTxRegister at h
    split_ifs at h
    cases h
    exact ⟨rfl, rfl, rfl⟩
  | readRxRegister =>
    cases h
    obtain ⟨hread, -, -⟩ := halReads_keepsStandAlone s
    exact hread.answer _ _
  | queryFramingError =>
    cases h
    obtain ⟨-, hframing, -⟩ := halReads_keepsStandAlone s
    exact hframing.answer _ _
  | queryOverrun =>
    cases h
    obtain ⟨-, -, hoverrun⟩ := halReads_keepsStandAlone s
    exact hoverrun.answer _ _
  | setTxInterruptEnabled | rxDisable | rxEnable | configureLine | hostGie =>
    cases h
    exact ⟨rfl, rfl, rfl⟩
  | envTxReady =>
    change execEnvTxReady s = .next t at h
    unfold execEnvTxReady at h
    split_ifs at h
    cases h
    exact ⟨rfl, rfl, rfl⟩
  | envRxArrive f o d =>
    change execEnvRxArrive f o d s = .next t at h
    unfold execEnvRxArrive at h
    split_ifs at h
    cases h
    exact ⟨rfl, rfl, rfl⟩

theorem issue_keepsStandAlone {i : Instr} (hi : i.format ≠ .rb) (h : issue i s = .next t) : s.KeepsStandAlone t := by
  cases i with
  | rbPush | rbPop | rbLen => exact absurd rfl hi
  | sendByte | sendLine | readByte | rxLen =>
    obtain ⟨-, -, -, rfl⟩ := issueFg_next h
    exact (State.KeepsStandAlone.refl s).withFg _
  | init | irqRx | irqTx | writeTxRegister | readRxRegister | setTxInterruptEnabled | queryFramingError
  | queryOverrun | rxDisable | rxEnable | configureLine | envTxReady | envRxArrive | hostGie =>
    exact exec_keepsStandAlone hi h

end frames

/-! ## Every step keeps the stand-alone buffer sound -/

section steps
variable {s t : State}

theorem exec_rbSound {i : Instr} (hs : s.rbSound) (h : exec i s = .next t) : t.rbSound := by
  cases i with
  | rbPush v =>
    obtain ⟨u, hissue, rfl⟩ := andThen_next h
    exact runProd_rbSound 4 (issueProd_rbSound hs rfl hissue)
  | rbPop =>
    obtain ⟨u, hissue, rfl⟩ := andThen_next h
    exact runCons_rbSound 4 (issueCons_rbSound hs rfl hissue)
  | rbLen =>
    rcases execRbLen_next h with rfl | rfl
    · exact hs.producerMove .stay (p := .idle) rfl
    · exact hs.consumerMove .stay (p := .idle) rfl
  | init | sendByte | sendLine | readByte | rxLen | irqRx | irqTx | writeTxRegister | readRxRegister
  | setTxInterruptEnabled | queryFramingError | queryOverrun | rxDisable | rxEnable | configureLine
  | envTxReady | envRxArrive | hostGie => exact (exec_keepsStandAlone (by simp [Instr.format]) h).rbSound hs

theorem issue_rbSound {i : Instr} (hs : s.rbSound) (h : issue i s = .next t) : t.rbSound := by
  cases i with
  | rbPush v => exact issueProd_rbSound hs rfl h
  | rbPop => exact issueCons_rbSound hs rfl h
  | rbLen =>
    unfold issue at h
    cases hport : s.rbPort with
    | prod =>
      rw [hport] at h
      exact issueProd_rbSound hs rfl h
    | cons =>
      rw [hport] at h
      exact issueCons_rbSound hs rfl h
  | init | sendByte | sendLine | readByte | rxLen | irqRx | irqTx | writeTxRegister | readRxRegister
  | setTxInterruptEnabled | queryFramingError | queryOverrun | rxDisable | rxEnable | configureLine
  | envTxReady | envRxArrive | hostGie => exact (issue_keepsStandAlone (by simp [Instr.format]) h).rbSound hs

theorem perform_rbSound {m : WordMode} {i : Instr} (hs : s.rbSound) (h : perform m i s = .next t) : t.rbSound := by
  cases m with
  | whole => exact exec_rbSound hs h
  | issue => exact issue_rbSound hs h

theorem microTurn_rbSound {c : Context} (hs : s.rbSound) (h : microTurn c s = .next t) : t.rbSound := by
  cases c with
  | fg =>
    obtain ⟨-, -, rfl⟩ := fgTurn_next h
    exact (fgMicro_keepsStandAlone s).rbSound hs
  | prod =>
    obtain ⟨-, -, rfl⟩ := prodTurn_next h
    exact prodMicro_rbSound hs
  | cons =>
    obtain ⟨-, -, rfl⟩ := consTurn_next h
    exact consMicro_rbSound hs

theorem deliver_rbSound {p : Port} {m : WordMode} {cw : Word} {line : List Byte} (hs : s.rbSound)
    (h : deliver p m cw line s = .next t) : t.rbSound := by
  rcases deliver_next h with rfl | ⟨i, -, -, hperform⟩
  · exact hs
  · exact perform_rbSound (s := present p line s) hs hperform

end steps

/-- Settles O57: a turn is a word at a port or a micro-step of a context; the stand-alone buffer's own contexts make the
moves of their roles, and the others leave it alone. -/
theorem standAloneBufferStaysFifo : Obligations.StandAloneBufferStaysFifo := by
  intro s t hs h
  have hrest : s.restAgenda.rbSound := hs
  rcases step_next h with rfl | ⟨c, hturn⟩ | ⟨p, m, cw, line, rest, -, hword⟩
  · exact hrest
  · exact microTurn_rbSound hrest hturn
  · exact deliver_rbSound hrest hword

end Sys2Proof.Machine
end

section
/-! The RingBuffer operations performed whole (R111 to R113, R115, R117): what push, pop and len do to the contents and
the occupancy of a buffer, and RB_PUSH, RB_POP and RB_LEN as one state each. -/

namespace Sys2Proof.Machine

/-! ## Push and pop on a buffer -/

section buffer
variable {B : RingBuffer}

theorem RingBuffer.occ_lt_n (hhead : B.head < B.n) (htail : B.tail < B.n) : B.occ < B.n := residue_lt hhead htail

/-- R21: the buffer is full at occupancy N - 1. -/
theorem RingBuffer.full_iff_occ (hhead : B.head < B.n) (htail : B.tail < B.n) :
    advance B.n B.head = B.tail ↔ B.occ = B.n - 1 :=
  residue_full B.two_le_n hhead htail

/-- R21: the buffer is empty at occupancy 0. -/
theorem RingBuffer.empty_iff_occ (hhead : B.head < B.n) (htail : B.tail < B.n) : B.head = B.tail ↔ B.occ = 0 :=
  (residue_eq_zero hhead htail).symm

theorem RingBuffer.occ_pushed1 (v : Byte) (hhead : B.head < B.n) (htail : B.tail < B.n)
    (hroom : advance B.n B.head ≠ B.tail) : (B.pushed1 v).occ = B.occ + 1 :=
  residue_advance_head hhead htail hroom

theorem RingBuffer.occ_popped1 (hhead : B.head < B.n) (htail : B.tail < B.n) (hbyte : B.head ≠ B.tail) :
    B.popped1.occ + 1 = B.occ :=
  residue_advance_tail hhead htail hbyte

theorem pushWhole_of_full (v : Byte) (hfull : advance B.n B.head = B.tail) : pushWhole v B = (B, .full) := by
  rw [pushWhole_eq, if_pos hfull]

theorem pushWhole_of_room (v : Byte) (hroom : advance B.n B.head ≠ B.tail) :
    pushWhole v B = (B.pushed1 v, .ok) := by
  rw [pushWhole_eq, if_neg hroom]

theorem popWhole_of_empty (hempty : B.head = B.tail) : popWhole B = (B, .empty) := by
  rw [popWhole_eq, if_pos hempty]

theorem popWhole_of_byte (hbyte : B.head ≠ B.tail) : popWhole B = (B.popped1, .some (B.readSlot B.tail)) := by
  rw [popWhole_eq, if_neg hbyte]

end buffer

/-- Settles O13: full and empty are occupancies N - 1 and 0; a push and a pop work at the two ends of the contents. -/
theorem wholeOperationsActOnTheContents : Obligations.WholeOperationsActOnTheContents := by
  intro B v hhead htail
  refine ⟨fun hocc => ?_, fun hocc => ?_, fun hocc => ?_, fun hocc => ?_, rfl⟩
  · exact pushWhole_of_full v ((RingBuffer.full_iff_occ hhead htail).mpr hocc)
  · have hroom : advance B.n B.head ≠ B.tail := mt (RingBuffer.full_iff_occ hhead htail).mp hocc
    rw [pushWhole_of_room v hroom]
    exact ⟨rfl, B.contents_pushed1 v hhead htail hroom⟩
  · exact popWhole_of_empty ((RingBuffer.empty_iff_occ hhead htail).mpr hocc)
  · have hbyte : B.head ≠ B.tail := mt (RingBuffer.empty_iff_occ hhead htail).mp hocc
    rw [popWhole_of_byte hbyte]
    exact ⟨B.readSlot B.tail, rfl, B.contents_popped1 hhead htail hbyte⟩

/-- Settles O14: a push that answers Ok found room, a pop that answers a byte found one. -/
theorem occupancyMovesByOne : Obligations.OccupancyMovesByOne := by
  intro B v hhead htail
  refine ⟨fun hok => ?_, fun b hsome => ?_, RingBuffer.occ_lt_n hhead htail⟩
  · by_cases hfull : advance B.n B.head = B.tail
    · rw [pushWhole_of_full v hfull] at hok
      cases hok
    · rw [pushWhole_of_room v hfull]
      exact RingBuffer.occ_pushed1 v hhead htail hfull
  · by_cases hempty : B.head = B.tail
    · rw [popWhole_of_empty hempty] at hsome
      cases hsome
    · rw [popWhole_of_byte hempty]
      exact RingBuffer.occ_popped1 hhead htail hempty

/-! ## The stand-alone operations -/

section operations
variable {s : State}

/-- A state whose producer is idle, with the producer put to idle. -/
theorem State.withProd_of_idle (h : s.prod = .idle) : s.withProd .idle = s := by
  unfold State.withProd
  rw [← h]

/-- A state whose consumer is idle, with the consumer put to idle. -/
theorem State.withCons_of_idle (h : s.cons = .idle) : s.withCons .idle = s := by
  unfold State.withCons
  rw [← h]

/-- A command to an idle producer, run to its end with no other agent in between (R87). -/
theorem andThen_issueProd_of_idle {p : ProdPos} (hidle : s.prod = .idle)
    (hrange : prodInRange (s.withProd p) = true) (k : Nat) :
    andThen (issueProd p s) (runProd k) = .next (runProd k (s.withProd p)) := by
  have hissue : issueProd p s = .next (s.withProd p) := by simp [issueProd, hidle, hrange]
  rw [hissue, andThen]

/-- A command to an idle consumer, run to its end with no other agent in between (R87). -/
theorem andThen_issueCons_of_idle {p : ConsPos} (hidle : s.cons = .idle)
    (hrange : consInRange (s.withCons p) = true) (k : Nat) :
    andThen (issueCons p s) (runCons k) = .next (runCons k (s.withCons p)) := by
  have hissue : issueCons p s = .next (s.withCons p) := by simp [issueCons, hidle, hrange]
  rw [hissue, andThen]

/-- RB_PUSH is the whole push on the stand-alone buffer, with its response. -/
theorem exec_rbPush_of_idle (v : Byte) (hidle : s.prod = .idle) (hB : s.rb.inRange = true) :
    exec (.rbPush v) s = .next ((s.withRb (pushWhole v s.rb).1).answer .prod (pushWhole v s.rb).2.rw) := by
  have hrange : prodInRange (s.withProd (.push (.pu1 v))) = true := by simp [prodInRange, PushPos.inRange, hB]
  rw [exec, execRbPush, andThen_issueProd_of_idle hidle hrange, runProd_push,
    State.withProd_of_idle (s := s.withRb (pushWhole v s.rb).1) hidle]

/-- RB_POP is the whole pop on the stand-alone buffer, with its response. -/
theorem exec_rbPop_of_idle (hidle : s.cons = .idle) (hB : s.rb.inRange = true) :
    exec .rbPop s = .next ((s.withRb (popWhole s.rb).1).answer .cons (popWhole s.rb).2.rw) := by
  have hrange : consInRange (s.withCons (.pop .po1)) = true := by simp [consInRange, PopPos.inRange, hB]
  rw [exec, execRbPop, andThen_issueCons_of_idle hidle hrange, runCons_pop,
    State.withCons_of_idle (s := s.withRb (popWhole s.rb).1) hidle]

/-- RB_LEN at the producer port answers the occupancy there. -/
theorem exec_rbLen_of_prod_idle (hport : s.rbPort = .prod) (hidle : s.prod = .idle) (hB : s.rb.inRange = true) :
    exec .rbLen s = .next (s.answer .prod (lengthRw s.rb.occ)) := by
  have hrange : prodInRange (s.withProd (.len .ln1)) = true := by simp [prodInRange, LenPos.inRange, hB]
  rw [exec, execRbLen, hport]
  dsimp only
  rw [andThen_issueProd_of_idle hidle hrange, runProd_len, State.withProd_of_idle hidle]

/-- RB_LEN at the consumer port answers the occupancy there. -/
theorem exec_rbLen_of_cons_idle (hport : s.rbPort = .cons) (hidle : s.cons = .idle) (hB : s.rb.inRange = true) :
    exec .rbLen s = .next (s.answer .cons (lengthRw s.rb.occ)) := by
  have hrange : consInRange (s.withCons (.len .ln1)) = true := by simp [consInRange, LenPos.inRange, hB]
  rw [exec, execRbLen, hport]
  dsimp only
  rw [andThen_issueCons_of_idle hidle hrange, runCons_len, State.withCons_of_idle hidle]

end operations

/-- Settles O15: RB_PUSH is the whole push, Full or not. -/
theorem rbPushStoresAndAdvancesTheHead : Obligations.RbPushStoresAndAdvancesTheHead := by
  intro s v hidle hB
  rw [exec_rbPush_of_idle v hidle hB]
  split_ifs with hfull
  · rw [pushWhole_of_full v hfull]
    rfl
  · rw [pushWhole_of_room v hfull]
    rfl

/-- Settles O16: RB_POP is the whole pop, Empty or not. -/
theorem rbPopReturnsTheOldestByte : Obligations.RbPopReturnsTheOldestByte := by
  intro s hidle hB
  rw [exec_rbPop_of_idle hidle hB]
  split_ifs with hempty
  · rw [popWhole_of_empty hempty]
    rfl
  · rw [popWhole_of_byte hempty]
    rfl

/-- Settles O17: the port says which context performs RB_LEN, and either answers the residue of the two indices. -/
theorem rbLenReturnsTheLength : Obligations.RbLenReturnsTheLength := fun _ hB =>
  ⟨fun hport hidle => exec_rbLen_of_prod_idle hport hidle hB,
    fun hport hidle => exec_rbLen_of_cons_idle hport hidle hB⟩

end Sys2Proof.Machine
end

section
/-! The foreground operations (R141 to R145): a turn of the foreground as the micro-step of the operation in progress, and
INIT, SEND_BYTE, READ_BYTE and RX_LEN performed whole as one state each; then READ_BYTE again and again (R145). -/

namespace Sys2Proof.Machine

/-! ## A micro-step of a SEND_BYTE (R142) -/

section sendMicro
variable {s : State} {B : RingBuffer} {q q' : PushPos}

theorem sendMicro_push_more (hmicro : pushMicro q s.tx = (B, .more q')) :
    sendMicro (.push q) s = (s.withTx B, .more (.push q')) := by
  simp [sendMicro, hmicro]

/-- A push that ended Ok leaves the arming to AR1. -/
theorem sendMicro_push_ok (hmicro : pushMicro q s.tx = (B, .done .ok)) :
    sendMicro (.push q) s = (s.withTx B, .more .ar1) := by
  simp [sendMicro, hmicro]

/-- A push that ended Full ends the SEND_BYTE. -/
theorem sendMicro_push_full (hmicro : pushMicro q s.tx = (B, .done .full)) :
    sendMicro (.push q) s = (s.withTx B, .done .full) := by
  simp [sendMicro, hmicro]

end sendMicro

/-! ## A turn of the foreground is its micro-step (R203) -/

/-- Where a SEND_LINE goes after an inner SEND_BYTE: to the next one, or to its answer (R143). -/
def afterInner (stage : Stage) (rest : List Byte) (s : State) : State :=
  match lineNext stage rest with
  | some x => s.withFg (lineAt x)
  | none => (s.withFg .idle).answer .fg (rwOk 0x00#8)

/-- The foreground positions whose micro-steps are those of a SEND_BYTE: by itself, or inside a SEND_LINE. -/
def IsSendContext (inside : SendPos → FgPos) : Prop :=
  inside = .sendByte ∨ ∃ stage rest, inside = fun p => .sendLine p stage rest

section turns
variable {s s' : State} {B : RingBuffer}

theorem fgTurn_of_inRange (hbusy : s.fg ≠ .idle) (hrange : fgInRange s = true) : fgTurn s = .next (fgMicro s) := by
  simp [fgTurn, hbusy, hrange]

/-- A micro-step of a SEND_BYTE that goes on, by itself or inside a SEND_LINE. -/
theorem fgMicro_send_more {inside : SendPos → FgPos} (hinside : IsSendContext inside) {p p' : SendPos}
    (hfg : s.fg = inside p) (hmicro : sendMicro p s = (s', .more p')) : fgMicro s = s'.withFg (inside p') := by
  rcases hinside with rfl | ⟨stage, rest, rfl⟩ <;> simp [fgMicro, hfg, hmicro]

/-- A turn of a SEND_BYTE in progress that goes on. -/
theorem fgTurn_send_more {inside : SendPos → FgPos} (hinside : IsSendContext inside) {p p' : SendPos}
    (hfg : s.fg = inside p) (hB : s.tx.inRange = true) (hp : p.inRange s.tx.n = true)
    (hmicro : sendMicro p s = (s', .more p')) : fgTurn s = .next (s'.withFg (inside p')) := by
  rw [← fgMicro_send_more hinside hfg hmicro]
  rcases hinside with rfl | ⟨stage, rest, rfl⟩ <;>
    exact fgTurn_of_inRange (by simp [hfg]) (by simp [fgInRange, hfg, hB, hp])

/-- The last turn of a SEND_BYTE by itself. -/
theorem fgTurn_sendByte_done {p : SendPos} {r : PushResult} (hfg : s.fg = .sendByte p) (hB : s.tx.inRange = true)
    (hp : p.inRange s.tx.n = true) (hmicro : sendMicro p s = (s', .done r)) :
    fgTurn s = .next ((s'.withFg .idle).answer .fg r.rw) := by
  rw [fgTurn_of_inRange (by simp [hfg]) (by simp [fgInRange, hfg, hB, hp])]
  simp [fgMicro, hfg, hmicro]

/-- The last micro-step of an inner SEND_BYTE: whatever it reported, the line goes on (R143). -/
theorem fgMicro_sendLine_done {p : SendPos} {stage : Stage} {rest : List Byte} {r : PushResult}
    (hfg : s.fg = .sendLine p stage rest) (hmicro : sendMicro p s = (s', .done r)) :
    fgMicro s = afterInner stage rest s' := by
  simp only [fgMicro, hfg, hmicro]
  rfl

/-- The last turn of an inner SEND_BYTE. -/
theorem fgTurn_sendLine_done {p : SendPos} {stage : Stage} {rest : List Byte} {r : PushResult}
    (hfg : s.fg = .sendLine p stage rest) (hB : s.tx.inRange = true) (hp : p.inRange s.tx.n = true)
    (hmicro : sendMicro p s = (s', .done r)) : fgTurn s = .next (afterInner stage rest s') := by
  rw [fgTurn_of_inRange (by simp [hfg]) (by simp [fgInRange, hfg, hB, hp]), fgMicro_sendLine_done hfg hmicro]

/-- The turn at SL0 of a SEND_LINE with a handle (R143). -/
theorem fgTurn_sl0 {bytes : List Byte} (hfg : s.fg = .sl0 true bytes) (hB : s.tx.inRange = true) :
    fgTurn s = .next (s.withFg (lineAt (lineFirst bytes))) := by
  rw [fgTurn_of_inRange (by simp [hfg]) (by simp [fgInRange, hfg, hB])]
  simp [fgMicro, hfg]

/-- A turn of a READ_BYTE in progress that goes on. -/
theorem fgTurn_readByte_more {p p' : PopPos} (hfg : s.fg = .readByte p) (hB : s.rx.inRange = true)
    (hp : p.inRange s.rx.n = true) (hmicro : popMicro p s.rx = (B, .more p')) :
    fgTurn s = .next ((s.withRx B).withFg (.readByte p')) := by
  rw [fgTurn_of_inRange (by simp [hfg]) (by simp [fgInRange, hfg, hB, hp])]
  simp [fgMicro, hfg, hmicro]

/-- The last turn of a READ_BYTE in progress. -/
theorem fgTurn_readByte_done {p : PopPos} {r : PopResult} (hfg : s.fg = .readByte p) (hB : s.rx.inRange = true)
    (hp : p.inRange s.rx.n = true) (hmicro : popMicro p s.rx = (B, .done r)) :
    fgTurn s = .next (((s.withRx B).withFg .idle).answer .fg r.rw) := by
  rw [fgTurn_of_inRange (by simp [hfg]) (by simp [fgInRange, hfg, hB, hp])]
  simp [fgMicro, hfg, hmicro]

/-- LN1 of an RX_LEN in progress. -/
theorem fgTurn_rxLen_ln1 (hfg : s.fg = .rxLen .ln1) (hB : s.rx.inRange = true) :
    fgTurn s = .next (s.withFg (.rxLen (.ln2 s.rx.head))) := by
  rw [fgTurn_of_inRange (by simp [hfg]) (by simp [fgInRange, hfg, hB, LenPos.inRange])]
  simp [fgMicro, hfg, lenMicro]

/-- LN2 of an RX_LEN in progress answers the residue of its snapshot. -/
theorem fgTurn_rxLen_ln2 {h : Nat} (hfg : s.fg = .rxLen (.ln2 h)) (hB : s.rx.inRange = true) (hh : h < s.rx.n) :
    fgTurn s = .next ((s.withFg .idle).answer .fg (lengthRw (residue s.rx.n h s.rx.tail))) := by
  rw [fgTurn_of_inRange (by simp [hfg]) (by simp [fgInRange, hfg, hB, LenPos.inRange, hh])]
  simp [fgMicro, hfg, lenMicro]

end turns

/-- Settles O22: PU1 to PU4 and then AR1, whatever operation the SEND_BYTE stands in; by itself it ends at PU2 with Full
or at AR1. -/
theorem sendByteMicroStepsArmLast : Obligations.SendByteMicroStepsArmLast := by
  intro s v h t next hB hh ht hnext
  have hpu2 : (SendPos.push (.pu2 v h)).inRange s.tx.n = true := decide_eq_true hh
  have hpu3 : (SendPos.push (.pu3 v h t next)).inRange s.tx.n = true := by
    simp [SendPos.inRange, PushPos.inRange, hh, ht, hnext]
  have hpu4 : (SendPos.push (.pu4 v h t next)).inRange s.tx.n = true := hpu3
  refine ⟨fun inside hinside => ⟨fun hfg => ?_, fun hfg hroom => ?_, fun hfg => ?_, fun hfg => ?_⟩,
    fun hfg hfull => ?_, fun hfg => ?_⟩
  · exact fgTurn_send_more hinside hfg hB rfl rfl
  · exact fgTurn_send_more hinside hfg hB hpu2 (sendMicro_push_more (pushMicro_pu2_of_room v hroom))
  · exact fgTurn_send_more hinside hfg hB hpu3 rfl
  · exact fgTurn_send_more hinside hfg hB hpu4 (sendMicro_push_ok rfl)
  · exact fgTurn_sendByte_done hfg hB hpu2 (sendMicro_push_full (pushMicro_pu2_of_full v hfull))
  · exact fgTurn_sendByte_done hfg hB rfl rfl

/-! ## The operations performed whole (R87) -/

section operations
variable {s : State}

/-- A state whose foreground is idle, with the foreground put to idle. -/
theorem State.withFg_of_idle (h : s.fg = .idle) : s.withFg .idle = s := by
  unfold State.withFg
  rw [← h]

/-- A command to an idle foreground, run to its end with no other agent in between. -/
theorem andThen_issueFg_of_idle {p : FgPos} (hinit : s.inited = true) (hidle : s.fg = .idle)
    (hrange : fgInRange (s.withFg p) = true) (k : Nat) :
    andThen (issueFg p s) (runFg k) = .next (runFg k (s.withFg p)) := by
  have hissue : issueFg p s = .next (s.withFg p) := by simp [issueFg, hinit, hidle, hrange]
  rw [hissue, andThen]

theorem sendEffect_of_full (v : Byte) (hfull : advance s.tx.n s.tx.head = s.tx.tail) : sendEffect v s = s := if_pos hfull

theorem sendEffect_of_room (v : Byte) (hroom : advance s.tx.n s.tx.head ≠ s.tx.tail) :
    sendEffect v s = halSetTxInterruptEnabled true (s.withTx (s.tx.pushed1 v)) := if_neg hroom

theorem sendResult_of_full (hfull : advance s.tx.n s.tx.head = s.tx.tail) : sendResult s = .full := if_pos hfull

theorem sendResult_of_room (hroom : advance s.tx.n s.tx.head ≠ s.tx.tail) : sendResult s = .ok := if_neg hroom

theorem sendEffect_fg (v : Byte) (s : State) : (sendEffect v s).fg = s.fg := by
  unfold sendEffect
  split_ifs <;> rfl

/-- SEND_BYTE is its push and its arming, with its response. -/
theorem exec_sendByte_of_idle (v : Byte) (hinit : s.inited = true) (hidle : s.fg = .idle) (hB : s.tx.inRange = true) :
    exec (.sendByte v) s = .next ((sendEffect v s).answer .fg (sendResult s).rw) := by
  have hrange : fgInRange (s.withFg (.sendByte (.push (.pu1 v)))) = true := by
    simp [fgInRange, SendPos.inRange, PushPos.inRange, hB]
  rw [exec, execSendByte, andThen_issueFg_of_idle hinit hidle hrange, FgPos.bound, runFg_sendByte,
    State.withFg_of_idle ((sendEffect_fg v s).trans hidle)]

/-- READ_BYTE is the whole pop on RX, with its response. -/
theorem exec_readByte_of_idle (hinit : s.inited = true) (hidle : s.fg = .idle) (hB : s.rx.inRange = true) :
    exec .readByte s = .next ((s.withRx (popWhole s.rx).1).answer .fg (popWhole s.rx).2.rw) := by
  have hrange : fgInRange (s.withFg (.readByte .po1)) = true := by simp [fgInRange, PopPos.inRange, hB]
  rw [exec, execReadByte, andThen_issueFg_of_idle hinit hidle hrange, FgPos.bound, runFg_readByte,
    State.withFg_of_idle (s := s.withRx (popWhole s.rx).1) hidle]

/-- READ_BYTE on an RX that is not empty answers the oldest byte. -/
theorem exec_readByte_of_byte (hinit : s.inited = true) (hidle : s.fg = .idle) (hB : s.rx.inRange = true)
    (hbyte : s.rx.head ≠ s.rx.tail) :
    exec .readByte s = .next ((s.withRx s.rx.popped1).answer .fg (rwOk (s.rx.readSlot s.rx.tail))) := by
  rw [exec_readByte_of_idle hinit hidle hB, popWhole_of_byte hbyte]
  rfl

/-- RX_LEN answers the occupancy of RX. -/
theorem exec_rxLen_of_idle (hinit : s.inited = true) (hidle : s.fg = .idle) (hB : s.rx.inRange = true) :
    exec .rxLen s = .next (s.answer .fg (lengthRw s.rx.occ)) := by
  have hrange : fgInRange (s.withFg (.rxLen .ln1)) = true := by simp [fgInRange, LenPos.inRange, hB]
  rw [exec, execRxLen, andThen_issueFg_of_idle hinit hidle hrange, FgPos.bound, runFg_rxLen,
    State.withFg_of_idle hidle]

/-- INIT is enabled before the first INIT, with `gie` 0 and the foreground idle (R141). -/
theorem exec_init_of_fresh (hinit : s.inited = false) (hgie : s.gie = false) (hidle : s.fg = .idle) :
    exec .init s = .next (initBody s) := by
  simp [exec, execInit, hinit, hgie, hidle]

end operations

/-- Settles O9: INIT is its one atomic step; its two primitive calls are logged one after the other. -/
theorem initResetsTheDriver : Obligations.InitResetsTheDriver := by
  intro s hinit hgie hidle
  rw [exec_init_of_fresh hinit hgie hidle, List.append_cons s.hal.halLog]
  rfl

/-- Settles O21: SEND_BYTE is its push on TX, Full or not, and arms after a push that returned Ok. -/
theorem sendBytePushesAndArms : Obligations.SendBytePushesAndArms := by
  intro s v hinit hidle hB
  rw [exec_sendByte_of_idle v hinit hidle hB]
  split_ifs with hfull
  · rw [sendEffect_of_full v hfull, sendResult_of_full hfull]
    rfl
  · rw [sendEffect_of_room v hfull, sendResult_of_room hfull]
    rfl

/-- Settles O25: READ_BYTE is the whole pop on RX, and its micro-steps are PO1 to PO4 on RX. -/
theorem readByteReturnsTheOldestByte : Obligations.ReadByteReturnsTheOldestByte := by
  refine ⟨rfl, fun s hinit hidle hB => ?_, fun s v h t hB hh ht => ?_⟩
  · split_ifs with hempty
    · rw [exec_readByte_of_idle hinit hidle hB, popWhole_of_empty hempty]
      rfl
    · exact exec_readByte_of_byte hinit hidle hB hempty
  · have hpo2 : (PopPos.po2 h).inRange s.rx.n = true := decide_eq_true hh
    have hpo3 : (PopPos.po3 h t).inRange s.rx.n = true := by simp [PopPos.inRange, hh, ht]
    have hpo4 : (PopPos.po4 h t v).inRange s.rx.n = true := hpo3
    exact ⟨fun hfg => fgTurn_readByte_more hfg hB rfl rfl,
      fun hfg hempty => fgTurn_readByte_done hfg hB hpo2 (popMicro_po2_of_empty hempty),
      fun hfg hbyte => fgTurn_readByte_more hfg hB hpo2 (popMicro_po2_of_byte hbyte),
      fun hfg => fgTurn_readByte_more hfg hB hpo3 rfl,
      fun hfg => fgTurn_readByte_done hfg hB hpo4 rfl⟩

/-- Settles O26: RX_LEN answers the residue of RX's two indices, and its micro-steps are LN1 and LN2. -/
theorem rxLenReturnsTheOccupancy : Obligations.RxLenReturnsTheOccupancy :=
  ⟨fun _ hinit hidle hB => exec_rxLen_of_idle hinit hidle hB,
    fun _ _ hB hh => ⟨fun hfg => fgTurn_rxLen_ln1 hfg hB, fun hfg => fgTurn_rxLen_ln2 hfg hB hh⟩⟩

/-! ## Reading RX to its last byte (R145) -/

theorem RingBuffer.popped1_inRange {B : RingBuffer} (hB : B.inRange = true) : B.popped1.inRange = true := by
  obtain ⟨hhead, -⟩ := B.inRange_iff.mp hB
  exact B.popped1.inRange_iff.mpr ⟨hhead, advance_lt _ (Nat.zero_lt_of_lt hhead)⟩

theorem RingBuffer.empty_iff_occ_of_inRange {B : RingBuffer} (hB : B.inRange = true) : B.head = B.tail ↔ B.occ = 0 := by
  obtain ⟨hhead, htail⟩ := B.inRange_iff.mp hB
  exact RingBuffer.empty_iff_occ hhead htail

/-- Settles O27: by induction on the number of reads; each takes the first byte of the contents. -/
theorem asManyReadsAsTheLengthReturnBytes : Obligations.AsManyReadsAsTheLengthReturnBytes := by
  intro s k
  induction k generalizing s with
  | zero => exact fun _ _ _ _ => ⟨s, rfl, by simp, rfl, rfl⟩
  | succ k ih =>
    intro hinit hidle hB hk
    obtain ⟨hhead, htail⟩ := s.rx.inRange_iff.mp hB
    have hbyte : s.rx.head ≠ s.rx.tail := mt (RingBuffer.empty_iff_occ_of_inRange hB).mp (by omega)
    have hocc : s.rx.popped1.occ + 1 = s.rx.occ := RingBuffer.occ_popped1 hhead htail hbyte
    have hk' : k ≤ s.rx.popped1.occ := by omega
    obtain ⟨t, hrun, hlog, hcontents, hsame⟩ :=
      ih ((s.withRx s.rx.popped1).answer .fg (rwOk (s.rx.readSlot s.rx.tail))) hinit hidle
        (RingBuffer.popped1_inRange hB) hk'
    have hfirst : s.rx.contents = s.rx.readSlot s.rx.tail :: s.rx.popped1.contents :=
      s.rx.contents_popped1 hhead htail hbyte
    refine ⟨t, ?_, ?_, ?_, hsame⟩
    · rw [execMany, exec_readByte_of_byte hinit hidle hB hbyte]
      exact hrun
    · rw [hlog, hfirst, State.answer_respLog, List.append_assoc]
      rfl
    · rw [hcontents, hfirst]
      rfl

end Sys2Proof.Machine
end

section
/-! SEND_LINE with a handle (R143): the bytes a line still has to send from each stage, the run of its inner SEND_BYTEs
one after the other, and what those leave in TX and on the collaborator when only the first of them fit. -/

namespace Sys2Proof.Machine

/-! ## The inner SEND_BYTEs of a line -/

/-- The bytes a SEND_LINE sends from the inner SEND_BYTE `x` (byte, stage, remaining bytes) on. -/
def lineBytes : Byte × Stage × List Byte → List Byte
  | (b, .body, rest) => b :: (rest ++ [Config.cr, Config.lf])
  | (b, .cr, _) => [b, Config.lf]
  | (b, .lf, _) => [b]

theorem lineBytes_lineFirst (bytes : List Byte) : lineBytes (lineFirst bytes) = bytes ++ [Config.cr, Config.lf] := by
  cases bytes <;> rfl

/-- The first byte of those is the one being sent; the others are those of the next inner SEND_BYTE, if there is one. -/
theorem lineBytes_eq_cons (b : Byte) (stage : Stage) (rest : List Byte) :
    lineBytes (b, stage, rest) = b :: ((lineNext stage rest).map lineBytes).getD [] := by
  cases stage with
  | body => exact congrArg (b :: ·) (lineBytes_lineFirst rest).symm
  | cr | lf => rfl

/-- SEND_BYTEs one after the other. -/
def sendAll (bytes : List Byte) (s : State) : State := bytes.foldl (fun s b => sendEffect b s) s

@[simp] theorem sendAll_nil (s : State) : sendAll [] s = s := rfl
@[simp] theorem sendAll_cons (b : Byte) (bytes : List Byte) (s : State) :
    sendAll (b :: bytes) s = sendAll bytes (sendEffect b s) := rfl

theorem sendAll_fg (bytes : List Byte) (s : State) : (sendAll bytes s).fg = s.fg := by
  induction bytes generalizing s with
  | nil => rfl
  | cons b bytes ih => exact (ih _).trans (sendEffect_fg b s)

section pu2
variable {s : State} {b : Byte} {h : Nat} {stage : Stage} {rest : List Byte}

/-- PU2 of an inner SEND_BYTE that finds TX full: the byte is dropped and the line goes on. -/
theorem fgMicro_inner_pu2_of_full (hfg : s.fg = .sendLine (.push (.pu2 b h)) stage rest)
    (hfull : advance s.tx.n h = s.tx.tail) : fgMicro s = afterInner stage rest s :=
  fgMicro_sendLine_done hfg (sendMicro_push_full (pushMicro_pu2_of_full b hfull))

/-- PU2 of an inner SEND_BYTE that finds room. -/
theorem fgMicro_inner_pu2_of_room (hfg : s.fg = .sendLine (.push (.pu2 b h)) stage rest)
    (hroom : advance s.tx.n h ≠ s.tx.tail) :
    fgMicro s = s.withFg (.sendLine (.push (.pu3 b h s.tx.tail (advance s.tx.n h))) stage rest) :=
  fgMicro_send_more (.inr ⟨stage, rest, rfl⟩) hfg (sendMicro_push_more (pushMicro_pu2_of_room b hroom))

end pu2

/-- A run of the foreground over one inner SEND_BYTE it has just begun: 2 micro-steps when TX is full, 5 otherwise. -/
theorem runFg_inner (s : State) (b : Byte) (stage : Stage) (rest : List Byte) :
    ∃ n ≤ 5, runFg n (s.withFg (lineAt (b, stage, rest))) = afterInner stage rest (sendEffect b s) := by
  by_cases hfull : advance s.tx.n s.tx.head = s.tx.tail
  · refine ⟨2, by decide, ?_⟩
    rw [sendEffect_of_full b hfull]
    calc
      runFg 2 (s.withFg (lineAt (b, stage, rest)))
        = fgMicro (s.withFg (.sendLine (.push (.pu2 b s.tx.head)) stage rest)) := rfl
      _ = afterInner stage rest (s.withFg (.sendLine (.push (.pu2 b s.tx.head)) stage rest)) :=
        fgMicro_inner_pu2_of_full rfl hfull
      _ = afterInner stage rest s := by cases stage <;> rfl
  · refine ⟨5, le_rfl, ?_⟩
    rw [sendEffect_of_room b hfull]
    calc
      runFg 5 (s.withFg (lineAt (b, stage, rest)))
        = runFg 3 (fgMicro (s.withFg (.sendLine (.push (.pu2 b s.tx.head)) stage rest))) := rfl
      _ = runFg 3 (s.withFg (.sendLine (.push (.pu3 b s.tx.head s.tx.tail (advance s.tx.n s.tx.head))) stage rest)) :=
        congrArg (runFg 3) (fgMicro_inner_pu2_of_room rfl hfull)
      _ = afterInner stage rest (halSetTxInterruptEnabled true (s.withTx (s.tx.pushed1 b))) := by
        cases stage <;> rfl

/-- A run of the foreground over the inner SEND_BYTEs of a line, from the first micro-step of one of them. -/
theorem runFg_line {bytes : List Byte} {x : Byte × Stage × List Byte} (hx : lineBytes x = bytes) {k : Nat}
    (hk : 5 * bytes.length ≤ k) (s : State) :
    runFg k (s.withFg (lineAt x)) = ((sendAll bytes s).withFg .idle).answer .fg (rwOk 0x00#8) := by
  induction bytes generalizing x k s with
  | nil =>
    obtain ⟨b, stage, rest⟩ := x
    rw [lineBytes_eq_cons] at hx
    cases hx
  | cons b bytes ih =>
    obtain ⟨b', stage, rest⟩ := x
    rw [lineBytes_eq_cons] at hx
    obtain ⟨rfl, hrest⟩ := List.cons.inj hx
    obtain ⟨n, hn, hrun⟩ := runFg_inner s b' stage rest
    rw [List.length_cons] at hk
    rw [show k = n + (k - n) by omega, runFg_add, hrun, afterInner, sendAll_cons]
    cases hnext : lineNext stage rest with
    | none =>
      rw [hnext] at hrest
      obtain rfl : bytes = [] := hrest.symm
      exact runFg_idle _ _ rfl
    | some y =>
      rw [hnext] at hrest
      exact ih hrest (by omega) (sendEffect b' s)

/-- A run of the foreground over a SEND_LINE with a handle it has just begun. -/
theorem runFg_sendLine (s : State) (bytes : List Byte) :
    runFg (FgPos.sl0 true bytes).bound (s.withFg (.sl0 true bytes)) =
      ((sendAll (bytes ++ [Config.cr, Config.lf]) s).withFg .idle).answer .fg (rwOk 0x00#8) := by
  have hsl0 : runFg 1 (s.withFg (.sl0 true bytes)) = s.withFg (lineAt (lineFirst bytes)) := rfl
  rw [FgPos.bound, runFg_add, hsl0]
  exact runFg_line (lineBytes_lineFirst bytes) (by simp) s

/-- What SEND_LINE with a handle leaves when it answers a next state. -/
theorem execSendLine_next {s t : State} (h : exec (.sendLine true) s = .next t) :
    t = ((sendAll (s.lineData ++ [Config.cr, Config.lf]) s).withFg .idle).answer .fg (rwOk 0x00#8) := by
  obtain ⟨s', hissue, rfl⟩ := andThen_next h
  obtain ⟨-, -, -, rfl⟩ := issueFg_next hissue
  exact runFg_sendLine s s.lineData

/-- SEND_LINE with a handle is the SEND_BYTEs of its bytes, CR and LF, with its response. -/
theorem exec_sendLine_of_idle {s : State} (hinit : s.inited = true) (hidle : s.fg = .idle)
    (hB : s.tx.inRange = true) :
    exec (.sendLine true) s =
      .next ((sendAll (s.lineData ++ [Config.cr, Config.lf]) s).answer .fg (rwOk 0x00#8)) := by
  have hrange : fgInRange (s.withFg (.sl0 true (lineOperand true s))) = true := by simp [fgInRange, hB]
  rw [exec, execSendLine, andThen_issueFg_of_idle hinit hidle hrange, runFg_sendLine,
    State.withFg_of_idle ((sendAll_fg _ s).trans hidle)]
  rfl

/-! ## What the SEND_BYTEs of a line leave -/

/-- `s` with `sent` pushed on TX, its storage and head given, and the interrupt armed once per byte. -/
def State.enqueued (s : State) (sent : List Byte) (storage : Memory) (head : Nat) : State :=
  { s with
    tx := { s.tx with storage := storage, head := head, pushed := s.tx.pushed ++ sent }
    hal := { s.hal with
      txArmed := s.hal.txArmed || decide (sent ≠ [])
      halLog := s.hal.halLog ++ List.replicate sent.length (.setTxInterruptEnabled true) } }

theorem State.enqueued_nil (s : State) : s.enqueued [] s.tx.storage s.tx.head = s := by simp [State.enqueued]

theorem State.enqueued_enqueued (s : State) (sent sent' : List Byte) (storage storage' : Memory) (head head' : Nat) :
    (s.enqueued sent storage head).enqueued sent' storage' head' = s.enqueued (sent ++ sent') storage' head' := by
  have harmed : ((s.hal.txArmed || decide (sent ≠ [])) || decide (sent' ≠ [])) =
      (s.hal.txArmed || decide (sent ++ sent' ≠ [])) := by
    cases sent <;> simp
  simp only [State.enqueued, harmed, List.append_assoc, List.replicate_append_replicate, List.length_append]

/-- `t` is `s` with `sent` enqueued on TX and the interrupt armed once per byte, and nothing else changed. -/
structure Enqueued (s : State) (sent : List Byte) (t : State) : Prop where
  contents : t.tx.contents = s.tx.contents ++ sent
  head : t.tx.head = (s.tx.head + sent.length) % s.tx.n
  slots : ∀ a, (∀ k < sent.length, a ≠ (s.tx.head + k) % s.tx.n) → t.tx.readSlot a = s.tx.readSlot a
  state : t = s.enqueued sent t.tx.storage t.tx.head

section enqueued
variable {s u t : State}

theorem Enqueued.nil (hhead : s.tx.head < s.tx.n) : Enqueued s [] s where
  contents := (List.append_nil _).symm
  head := (Nat.mod_eq_of_lt hhead).symm
  slots _ _ := rfl
  state := s.enqueued_nil.symm

theorem Enqueued.tx_n {sent : List Byte} (h : Enqueued s sent t) : t.tx.n = s.tx.n := by rw [h.state]; rfl

theorem Enqueued.tx_tail {sent : List Byte} (h : Enqueued s sent t) : t.tx.tail = s.tx.tail := by rw [h.state]; rfl

/-- One SEND_BYTE that found room. -/
theorem Enqueued.byte (b : Byte) (hhead : s.tx.head < s.tx.n) (htail : s.tx.tail < s.tx.n)
    (hroom : advance s.tx.n s.tx.head ≠ s.tx.tail) : Enqueued s [b] (sendEffect b s) := by
  rw [sendEffect_of_room b hroom]
  exact {
    contents := s.tx.contents_pushed1 b hhead htail hroom
    head := rfl
    slots := fun a ha => s.tx.readSlot_pushed1_other b (by simpa [Nat.mod_eq_of_lt hhead] using ha)
    state := by
      rw [State.enqueued, show decide ([b] ≠ []) = true from rfl, Bool.or_true]
      rfl }

theorem Enqueued.append {sent sent' : List Byte} (h : Enqueued s sent u) (h' : Enqueued u sent' t) :
    Enqueued s (sent ++ sent') t where
  contents := by rw [h'.contents, h.contents, List.append_assoc]
  head := by rw [h'.head, h.tx_n, h.head, Nat.mod_add_mod, List.length_append, Nat.add_assoc]
  slots a ha := by
    rw [List.length_append] at ha
    have hlater : t.tx.readSlot a = u.tx.readSlot a := h'.slots a fun k hk => by
      rw [h.tx_n, h.head, Nat.mod_add_mod, Nat.add_assoc]
      exact ha _ (by omega)
    exact hlater.trans (h.slots a fun k hk => ha k (by omega))
  state := calc
    t = u.enqueued sent' t.tx.storage t.tx.head := h'.state
    _ = (s.enqueued sent u.tx.storage u.tx.head).enqueued sent' t.tx.storage t.tx.head :=
      congrArg (·.enqueued sent' t.tx.storage t.tx.head) h.state
    _ = s.enqueued (sent ++ sent') t.tx.storage t.tx.head := s.enqueued_enqueued ..

/-- The SEND_BYTEs of `bytes` enqueue the first `N - 1 - occ` of them and drop the others (R143, R221). -/
theorem sendAll_enqueued (bytes : List Byte) (s : State) (hhead : s.tx.head < s.tx.n) (htail : s.tx.tail < s.tx.n) :
    Enqueued s (bytes.take (s.tx.n - 1 - s.tx.occ)) (sendAll bytes s) := by
  induction bytes generalizing s with
  | nil =>
    rw [List.take_nil]
    exact .nil hhead
  | cons b bytes ih =>
    rw [sendAll_cons]
    have hfull_iff := RingBuffer.full_iff_occ hhead htail
    by_cases hfull : advance s.tx.n s.tx.head = s.tx.tail
    · have hnone : s.tx.n - 1 - s.tx.occ = 0 := by rw [hfull_iff.mp hfull, Nat.sub_self]
      have hs := ih s hhead htail
      rw [sendEffect_of_full b hfull]
      rw [hnone, List.take_zero] at hs ⊢
      exact hs
    · have hbyte : Enqueued s [b] (sendEffect b s) := .byte b hhead htail hfull
      have htx : (sendEffect b s).tx = s.tx.pushed1 b := by rw [sendEffect_of_room b hfull]; rfl
      have hocc : (sendEffect b s).tx.occ = s.tx.occ + 1 := by rw [htx, RingBuffer.occ_pushed1 b hhead htail hfull]
      have hrest := ih (sendEffect b s) (by rw [htx]; exact advance_lt _ (by omega)) (by rw [htx]; exact htail)
      have hlt := RingBuffer.occ_lt_n hhead htail
      have hroom : s.tx.n - 1 - s.tx.occ = s.tx.n - 1 - (s.tx.occ + 1) + 1 := by
        have := mt hfull_iff.mpr hfull
        omega
      rw [hbyte.tx_n, hocc] at hrest
      rw [hroom, List.take_succ_cons]
      exact hbyte.append hrest

end enqueued

/-- Settles O24: the inner SEND_BYTEs run one after the other, Full or not, and enqueue what fits. -/
theorem sendLineEnqueuesWhatFits : Obligations.SendLineEnqueuesWhatFits := by
  refine ⟨fun s hinit hidle hB => ?_, fun s b rest hB => ⟨fun hfg => ?_, fun hfg => ?_⟩,
    fun s t p v h stage rest hB hh hfg hinner => ?_⟩
  · obtain ⟨hhead, htail⟩ := s.tx.inRange_iff.mp hB
    have hline := sendAll_enqueued (s.lineData ++ [Config.cr, Config.lf]) s hhead htail
    exact ⟨_, exec_sendLine_of_idle hinit hidle hB, hline.contents, hline.tx_tail, hline.head, hline.slots,
      congrArg (fun u => u.answer .fg (rwOk 0x00#8)) hline.state⟩
  · exact fgTurn_sl0 hfg hB
  · exact fgTurn_sl0 hfg hB
  · obtain ⟨hturn, hlog⟩ : fgTurn s = .next (afterInner stage rest t) ∧ s.respLog = t.respLog := by
      rcases hinner with ⟨rfl, rfl⟩ | ⟨rfl, hfull, rfl⟩
      · exact ⟨fgTurn_sendLine_done hfg hB rfl rfl, rfl⟩
      · exact ⟨fgTurn_sendLine_done hfg hB (decide_eq_true hh)
          (sendMicro_push_full (pushMicro_pu2_of_full v hfull)), rfl⟩
    rw [hturn, hlog]
    refine ⟨fun b r hstage hrest => ?_, fun hstage hrest => ?_, fun hstage => ?_, fun hstage => ?_⟩
    · rw [hstage, hrest]
      rfl
    · rw [hstage, hrest]
      rfl
    · rw [hstage]
      rfl
    · rw [hstage]
      rfl

end Sys2Proof.Machine
end

section
/-! The TX interrupt (R146, R147, R172): what IRQ_TX does with an empty TX, with the last byte and with more, what every
operation does to `tx_armed`, and the rounds of ENV_TX_READY and IRQ_TX that drain the buffer. -/

namespace Sys2Proof.Machine

/-! ## IRQ_TX (R172) -/

section irqTx
variable {s : State}

/-- TXH1 to TXH3: the oldest byte of TX is popped and written to the transmit register. -/
def irqTxWrite (s : State) : State := halWriteTxRegister (s.tx.readSlot s.tx.tail) (s.withTx s.tx.popped1)

theorem irqTxBody_of_empty (hempty : s.tx.head = s.tx.tail) : irqTxBody s = halSetTxInterruptEnabled false s := by
  simp only [irqTxBody, popWhole_of_empty hempty]
  rfl

theorem irqTxBody_of_byte (hbyte : s.tx.head ≠ s.tx.tail) :
    irqTxBody s =
      if s.tx.popped1.head = s.tx.popped1.tail then halSetTxInterruptEnabled false (irqTxWrite s) else irqTxWrite s := by
  simp only [irqTxBody, popWhole_of_byte hbyte]
  rfl

/-- The byte popped was the last: the interrupt is masked in the same firing. -/
theorem irqTxBody_of_last (hbyte : s.tx.head ≠ s.tx.tail) (hlast : s.tx.popped1.head = s.tx.popped1.tail) :
    irqTxBody s = halSetTxInterruptEnabled false (irqTxWrite s) := by
  rw [irqTxBody_of_byte hbyte, if_pos hlast]

/-- TX still holds a byte: the interrupt stays armed. -/
theorem irqTxBody_of_more (hbyte : s.tx.head ≠ s.tx.tail) (hmore : s.tx.popped1.head ≠ s.tx.popped1.tail) :
    irqTxBody s = irqTxWrite s := by
  rw [irqTxBody_of_byte hbyte, if_neg hmore]

theorem irqTxBody_txArmed (harmed : s.hal.txArmed = true) (hB : s.tx.inRange = true) :
    (irqTxBody s).hal.txArmed = decide (2 ≤ s.tx.occ) := by
  have hempty_iff := RingBuffer.empty_iff_occ_of_inRange hB
  by_cases hempty : s.tx.head = s.tx.tail
  · rw [irqTxBody_of_empty hempty, hempty_iff.mp hempty]
    rfl
  · obtain ⟨hhead, htail⟩ := s.tx.inRange_iff.mp hB
    have hocc := RingBuffer.occ_popped1 hhead htail hempty
    have hlast_iff := RingBuffer.empty_iff_occ_of_inRange (RingBuffer.popped1_inRange hB)
    by_cases hlast : s.tx.popped1.head = s.tx.popped1.tail
    · rw [irqTxBody_of_last hempty hlast, ← hocc, hlast_iff.mp hlast]
      rfl
    · have hmore := mt hlast_iff.mpr hlast
      rw [irqTxBody_of_more hempty hlast, decide_eq_true (show 2 ≤ s.tx.occ by omega)]
      exact harmed

end irqTx

/-! ## What the micro-steps and the operations do to `tx_armed` (R147) -/

/-- A micro-step of a SEND_BYTE changes the collaborator at AR1 only. -/
theorem sendMicro_hal (p : SendPos) (s : State) :
    (sendMicro p s).1.hal = if p = .ar1 then s.hal.setTxInterruptEnabled true else s.hal := by
  cases p with
  | ar1 => rfl
  | push q =>
    dsimp only [sendMicro]
    rcases pushMicro q s.tx with ⟨B, q' | _ | _⟩ <;> rfl

/-- A micro-step of the foreground changes the collaborator at AR1 only. -/
theorem fgMicro_hal (s : State) :
    (fgMicro s).hal = if s.fg.atAr1 then s.hal.setTxInterruptEnabled true else s.hal := by
  have hsend (p : SendPos) : (sendMicro p s).1.hal =
      if (FgPos.sendByte p).atAr1 then s.hal.setTxInterruptEnabled true else s.hal := by
    rw [sendMicro_hal]
    cases p <;> rfl
  unfold fgMicro
  cases s.fg with
  | idle => rfl
  | sendByte p =>
    rw [← hsend p]
    dsimp only
    rcases sendMicro p s with ⟨s', p' | r⟩ <;> rfl
  | sl0 hf bytes => cases hf <;> rfl
  | sendLine p stage rest =>
    have hline : (FgPos.sendLine p stage rest).atAr1 = (FgPos.sendByte p).atAr1 := by cases p <;> rfl
    rw [hline, ← hsend p]
    dsimp only
    rcases sendMicro p s with ⟨s', p' | r⟩
    · rfl
    · dsimp only
      cases lineNext stage rest <;> rfl
  | readByte p =>
    dsimp only
    rcases popMicro p s.rx with ⟨B, p' | r⟩ <;> rfl
  | rxLen p =>
    dsimp only
    cases lenMicro p s.rx <;> rfl

theorem fgMicro_txArmed (s : State) : (fgMicro s).hal.txArmed = (s.hal.txArmed || s.fg.atAr1) := by
  rw [fgMicro_hal]
  cases s.fg.atAr1
  · exact (Bool.or_false _).symm
  · exact (Bool.or_true _).symm

theorem sendEffect_txArmed (v : Byte) (s : State) :
    (sendEffect v s).hal.txArmed = (s.hal.txArmed || decide (advance s.tx.n s.tx.head ≠ s.tx.tail)) := by
  by_cases hfull : advance s.tx.n s.tx.head = s.tx.tail
  · rw [sendEffect_of_full v hfull, decide_eq_false (not_not.mpr hfull), Bool.or_false]
  · rw [sendEffect_of_room v hfull, decide_eq_true hfull, Bool.or_true]
    rfl

/-- The SEND_BYTEs of a line that is not empty arm exactly when the first of them does (R147). -/
theorem sendAll_txArmed {bytes : List Byte} (hbytes : bytes ≠ []) {s : State} (hB : s.tx.inRange = true) :
    (sendAll bytes s).hal.txArmed = (s.hal.txArmed || decide (advance s.tx.n s.tx.head ≠ s.tx.tail)) := by
  obtain ⟨hhead, htail⟩ := s.tx.inRange_iff.mp hB
  have hlt := RingBuffer.occ_lt_n hhead htail
  have hsent : bytes.take (s.tx.n - 1 - s.tx.occ) ≠ [] ↔ advance s.tx.n s.tx.head ≠ s.tx.tail := by
    rw [not_iff_not, RingBuffer.full_iff_occ hhead htail, List.take_eq_nil_iff, or_iff_left hbytes]
    omega
  rw [(sendAll_enqueued bytes s hhead htail).state, State.enqueued, decide_eq_decide.mpr hsent]

/-- SEND_LINE without a handle touches nothing (R222). -/
theorem execSendLine_noHandle_next {s t : State} (h : exec (.sendLine false) s = .next t) :
    t = (s.withFg .idle).answer .fg rwInvalidInput := by
  obtain ⟨s', hissue, rfl⟩ := andThen_next h
  obtain ⟨-, -, -, rfl⟩ := issueFg_next hissue
  rfl

theorem execSendLine_txArmed {h : Bool} {s t : State} (hexec : exec (.sendLine h) s = .next t) :
    t.hal.txArmed = (s.hal.txArmed || (h && decide (advance s.tx.n s.tx.head ≠ s.tx.tail))) := by
  cases h with
  | false =>
    obtain rfl := execSendLine_noHandle_next hexec
    exact (Bool.or_false _).symm
  | true =>
    obtain ⟨s', hissue, -⟩ := andThen_next hexec
    obtain ⟨-, -, hrange, -⟩ := issueFg_next hissue
    obtain rfl := execSendLine_next hexec
    exact sendAll_txArmed (by simp) (by simpa [fgInRange] using hrange)

/-- A primitive that only reads the collaborator, with or without a sample waiting. -/
theorem halReads_txArmed (s : State) :
    (halReadRxRegister s).2.hal.txArmed = s.hal.txArmed ∧ (halQueryFramingError s).2.hal.txArmed = s.hal.txArmed ∧
    (halQueryOverrun s).2.hal.txArmed = s.hal.txArmed := by
  unfold halReadRxRegister halQueryFramingError halQueryOverrun
  cases s.hal.rxSample <;> exact ⟨rfl, rfl, rfl⟩

/-- Settles O36: operation by operation. -/
theorem armingStateMovesAsTheTableSays : Obligations.ArmingStateMovesAsTheTableSays := by
  refine ⟨fun i s t h => ?_, fun s t h => ?_⟩
  · cases i with
    | rbPush v =>
      obtain rfl := execRbPush_next h
      rfl
    | rbPop =>
      obtain rfl := execRbPop_next h
      rfl
    | rbLen => rcases execRbLen_next h with rfl | rfl <;> rfl
    | init =>
      obtain rfl := execInit_next h
      rfl
    | sendByte v =>
      obtain rfl := execSendByte_next h
      exact sendEffect_txArmed v s
    | sendLine b => exact execSendLine_txArmed h
    | readByte =>
      obtain rfl := execReadByte_next h
      rfl
    | rxLen =>
      obtain rfl := execRxLen_next h
      rfl
    | irqRx => exact (execIrqRx_changedByIrqRx h).txArmed
    | irqTx =>
      obtain ⟨-, hreq, -, hB, rfl⟩ := takeHandler_next h
      obtain ⟨harmed, -⟩ := (Bool.and_eq_true_iff).mp hreq
      exact irqTxBody_txArmed harmed hB
    | writeTxRegister v =>
      change execWriteTxRegister v s = .next t at h
      unfold execWriteTxRegister at h
      split_ifs at h
      cases h
      rfl
    | readRxRegister =>
      cases h
      exact (halReads_txArmed s).1
    | queryFramingError =>
      cases h
      exact (halReads_txArmed s).2.1
    | queryOverrun =>
      cases h
      exact (halReads_txArmed s).2.2
    | setTxInterruptEnabled | rxDisable | rxEnable | configureLine | hostGie =>
      cases h
      rfl
    | envTxReady =>
      change execEnvTxReady s = .next t at h
      unfold execEnvTxReady at h
      split_ifs at h
      cases h
      rfl
    | envRxArrive f o d =>
      change execEnvRxArrive f o d s = .next t at h
      unfold execEnvRxArrive at h
      split_ifs at h
      cases h
      rfl
  · obtain ⟨-, -, rfl⟩ := fgTurn_next h
    exact fgMicro_txArmed s

/-! ## Draining TX (R147, R172, R199) -/

/-- A driver that sends: armed, with a byte in TX, interrupts on, and the transmit register busy. -/
structure State.Draining (s : State) : Prop where
  inited : s.inited = true
  gie : s.gie = true
  configured : s.hal.configured = true
  busy : s.hal.txRegEmpty = false
  armed : s.hal.txArmed = true
  inRange : s.tx.inRange = true
  byte : s.tx.head ≠ s.tx.tail

/-- The state after ENV_TX_READY (R199). -/
def State.txReady (s : State) : State := s.withHal { s.hal with txRegEmpty := true }

section draining
variable {s : State}

/-- In a driver that sends, both steps of a round are enabled. -/
theorem State.Draining.round (h : s.Draining) (k : Nat) :
    drainRounds (k + 1) s = drainRounds k (irqTxBody s.txReady) := by
  have hready : exec .envTxReady s = .next s.txReady := by
    simp [exec, execEnvTxReady, h.configured, h.busy, State.txReady]
  have hreq : s.txReady.hal.reqTx = true := Bool.and_eq_true_iff.mpr ⟨h.armed, rfl⟩
  have hirq : exec .irqTx s.txReady = .next (irqTxBody s.txReady) :=
    takeHandler_taken h.inited hreq h.gie h.inRange
  simp only [drainRounds, hready, hirq, continueWith]

/-- After a round that leaves a byte in TX the driver still sends. -/
theorem State.Draining.afterWrite (h : s.Draining) (hmore : s.tx.popped1.head ≠ s.tx.popped1.tail) :
    (irqTxWrite s.txReady).Draining where
  inited := h.inited
  gie := h.gie
  configured := h.configured
  busy := rfl
  armed := h.armed
  inRange := RingBuffer.popped1_inRange h.inRange
  byte := hmore

end draining

/-- Settles O38: by induction on the number of bytes; the round that sends the last one masks the interrupt. -/
theorem drainingSendsTheWholeBuffer : Obligations.DrainingSendsTheWholeBuffer := by
  intro s hinit hgie hconf hbusy harmed hB hbyte
  have hs : s.Draining := ⟨hinit, hgie, hconf, hbusy, harmed, hB, hbyte⟩
  clear hinit hgie hconf hbusy harmed hB hbyte
  generalize hk : s.tx.occ = k
  induction k generalizing s with
  | zero => exact absurd ((RingBuffer.empty_iff_occ_of_inRange hs.inRange).mpr hk) hs.byte
  | succ k ih =>
    obtain ⟨hhead, htail⟩ := s.tx.inRange_iff.mp hs.inRange
    have hocc := RingBuffer.occ_popped1 hhead htail hs.byte
    have hfirst := s.tx.contents_popped1 hhead htail hs.byte
    have hlast_iff := RingBuffer.empty_iff_occ_of_inRange (RingBuffer.popped1_inRange hs.inRange)
    rw [hs.round, hfirst]
    by_cases hlast : s.tx.popped1.head = s.tx.popped1.tail
    · have hnone : s.tx.popped1.occ = 0 := hlast_iff.mp hlast
      obtain rfl : k = 0 := by omega
      have hcontents : s.tx.popped1.contents = [] :=
        List.length_eq_zero_iff.mp (s.tx.popped1.contents_length.trans hnone)
      rw [irqTxBody_of_last (s := s.txReady) hs.byte hlast, hcontents]
      exact ⟨_, rfl, rfl, rfl, hlast.symm, rfl, rfl, rfl⟩
    · rw [irqTxBody_of_more (s := s.txReady) hs.byte hlast]
      obtain ⟨t, hrun, hlog, hhead', htail', hmasked, hrx, hfg⟩ :=
        ih _ (hs.afterWrite hlast) (show s.tx.popped1.occ = k by omega)
      exact ⟨t, hrun, hlog.trans (List.append_assoc ..), hhead', htail', hmasked, hrx, hfg⟩

end Sys2Proof.Machine
end

section
/-! The two interrupt handlers taken (R170 to R172, R229): the whole next state of IRQ_RX for a sample waiting and of
IRQ_TX for an empty and a non-empty TX. -/

namespace Sys2Proof.Machine

/-! ## IRQ_RX (R171) -/

/-- RXH4: a byte with a framing error is not pushed, and one that meets a full RX is dropped. -/
theorem irqRxPush_eq (fe : Bool) (v : Byte) (s : State) :
    (if fe then s else s.withRx (pushWhole v s.rx).1) =
      s.withRx (if fe = true ∨ advance s.rx.n s.rx.head = s.rx.tail then s.rx else s.rx.pushed1 v) := by
  cases fe with
  | true => rfl
  | false =>
    simp only [Bool.false_eq_true, if_false, false_or, pushWhole_eq]
    split_ifs <;> rfl

/-- RXH5: an overrun resets the receiver, which changes the collaborator alone. -/
theorem irqRxRestart_eq (ovr : Bool) (s : State) :
    (if ovr then halRxEnable (halRxDisable s) else s) =
      s.withHal (if ovr then s.hal.rxDisable.rxEnable else s.hal) := by
  cases ovr <;> rfl

/-- What IRQ_RX has done to the collaborator by its end: the sample is consumed, and the receiver is on again. -/
theorem irqRx_hal_eq (ovr : Bool) {c : Collaborator} (henabled : c.rxEnabled = true) :
    (if ovr then c.queryFramingError.queryOverrun.readRxRegister.rxDisable.rxEnable
      else c.queryFramingError.queryOverrun.readRxRegister) =
      { c with
        rxSample := none
        rxEnabled := true
        halLog := c.halLog ++ [.queryFramingError, .queryOverrun, .readRxRegister]
          ++ (if ovr then [.rxDisable, .rxEnable] else []) } := by
  cases ovr <;>
    simp [Collaborator.queryFramingError, Collaborator.queryOverrun, Collaborator.readRxRegister,
      Collaborator.rxDisable, Collaborator.rxEnable, henabled]

/-- RXH4 and RXH5 as one state. -/
theorem irqRxFinish_eq (x : Sample) (s : State) :
    irqRxFinish x s =
      ((s.noteRead x (decide (advance s.rx.n s.rx.head ≠ s.rx.tail))).withRx
        (if x.fe = true ∨ advance s.rx.n s.rx.head = s.rx.tail then s.rx else s.rx.pushed1 x.data)).withHal
        (if x.ovr then s.hal.rxDisable.rxEnable else s.hal) := by
  have hroom : (!s.rx.isFull) = decide (advance s.rx.n s.rx.head ≠ s.rx.tail) := decide_not.symm
  dsimp only [irqRxFinish]
  rw [hroom, irqRxPush_eq, irqRxRestart_eq]
  rfl

/-- Settles O30: the reads return the waiting sample; what follows is a push or none, and a receiver reset or none. -/
theorem irqRxReadsAndPushesTheSample : Obligations.IrqRxReadsAndPushesTheSample := by
  intro s x hinit hgie hirq henabled hx hB
  have hreq : s.hal.reqRx = true := by simp [Collaborator.reqRx, hirq, henabled, hx]
  have htaken : exec .irqRx s = .next (irqRxBody s) := takeHandler_taken hinit hreq hgie hB
  rw [htaken, irqRxBody_of_sample hx, irqRxFinish_eq, State.withHal_hal, irqRx_hal_eq x.ovr henabled]
  rfl

/-! ## IRQ_TX (R172) -/

/-- Settles O31: TX is empty, or the byte written was its last, or it still holds one. -/
theorem irqTxWritesOneByteOrMasks : Obligations.IrqTxWritesOneByteOrMasks := by
  intro s hinit hgie harmed hready hB
  have hreq : s.hal.reqTx = true := Bool.and_eq_true_iff.mpr ⟨harmed, hready⟩
  have htaken : exec .irqTx s = .next (irqTxBody s) := takeHandler_taken hinit hreq hgie hB
  rw [htaken]
  refine ⟨fun hempty => ?_, fun hbyte => ?_⟩
  · rw [irqTxBody_of_empty hempty]
    rfl
  · by_cases hlast : advance s.tx.n s.tx.tail = s.tx.head
    · rw [irqTxBody_of_last hbyte hlast.symm, decide_eq_false (not_not.mpr hlast), if_pos hlast]
      rfl
    · rw [irqTxBody_of_more hbyte (Ne.symm hlast), decide_eq_true hlast, if_neg hlast, List.append_nil, ← harmed]
      rfl

end Sys2Proof.Machine
end

section
/-! Whole operations as their issue and micro-steps (R87, R203, R280): how many turns of its context each foreground and
stand-alone operation takes, and where they end. -/

namespace Sys2Proof.Machine

/-! ## Turns in a row -/

section turns
variable {c : Context} {s u : State} {r : Result}

/-- A turn that answers a next state, and the turns after it. -/
theorem microMany_cons {k : Nat} (hturn : microTurn c s = .next u) (hrest : microMany c k u = r) :
    microMany c (k + 1) s = r := by
  rw [microMany, hturn]
  exact hrest

/-- Turns that reach a state, and the turns from it on. -/
theorem microMany_add {a b : Nat} (hfirst : microMany c a s = .next u) (hrest : microMany c b u = r) :
    microMany c (a + b) s = r := by
  induction a generalizing s with
  | zero =>
    obtain rfl := Host.Outcome.next.inj hfirst
    rwa [Nat.zero_add]
  | succ a ih =>
    rw [microMany] at hfirst
    cases hturn : microTurn c s with
    | next u' =>
      rw [hturn] at hfirst
      rw [Nat.add_right_comm]
      exact microMany_cons hturn (ih hfirst)
    | fault e =>
      rw [hturn] at hfirst
      cases hfirst
    | refused e =>
      rw [hturn] at hfirst
      cases hfirst

end turns

/-! ## The operations of the stand-alone buffer, and READ_BYTE and RX_LEN -/

section operations
variable {s : State}

/-- A push at the producer takes 2 turns when the buffer is full and 4 otherwise. -/
theorem microMany_push (v : Byte) (hB : s.rb.inRange = true) :
    ∃ k, (k = 2 ∨ k = 4) ∧ microMany .prod k (s.withProd (.push (.pu1 v))) =
      .next (((s.withRb (pushWhole v s.rb).1).withProd .idle).answer .prod (pushWhole v s.rb).2.rw) := by
  obtain ⟨hhead, htail⟩ := s.rb.inRange_iff.mp hB
  have hpu2 : (PushPos.pu2 v s.rb.head).inRange s.rb.n = true := decide_eq_true hhead
  have hpu1 : microTurn .prod (s.withProd (.push (.pu1 v))) = .next (s.withProd (.push (.pu2 v s.rb.head))) :=
    prodTurn_push_more rfl hB rfl rfl
  by_cases hfull : advance s.rb.n s.rb.head = s.rb.tail
  · rw [pushWhole_of_full v hfull]
    exact ⟨2, .inl rfl, microMany_cons hpu1 <|
      microMany_cons (prodTurn_push_done rfl hB hpu2 (pushMicro_pu2_of_full v hfull)) rfl⟩
  · have hpu3 : (PushPos.pu3 v s.rb.head s.rb.tail (advance s.rb.n s.rb.head)).inRange s.rb.n = true := by
      simp [PushPos.inRange, hhead, htail, advance_lt _ (Nat.zero_lt_of_lt hhead)]
    rw [pushWhole_of_room v hfull]
    exact ⟨4, .inr rfl, microMany_cons hpu1 <|
      microMany_cons (prodTurn_push_more rfl hB hpu2 (pushMicro_pu2_of_room v hfull)) <|
      microMany_cons (prodTurn_push_more rfl hB hpu3 rfl) <|
      microMany_cons (prodTurn_push_done rfl hB hpu3 rfl) rfl⟩

/-- A pop at the consumer takes 2 turns when the buffer is empty and 4 otherwise. -/
theorem microMany_pop (hB : s.rb.inRange = true) :
    ∃ k, (k = 2 ∨ k = 4) ∧ microMany .cons k (s.withCons (.pop .po1)) =
      .next (((s.withRb (popWhole s.rb).1).withCons .idle).answer .cons (popWhole s.rb).2.rw) := by
  obtain ⟨hhead, htail⟩ := s.rb.inRange_iff.mp hB
  have hpo2 : (PopPos.po2 s.rb.head).inRange s.rb.n = true := decide_eq_true hhead
  have hpo1 : microTurn .cons (s.withCons (.pop .po1)) = .next (s.withCons (.pop (.po2 s.rb.head))) :=
    consTurn_pop_more rfl hB rfl rfl
  by_cases hempty : s.rb.head = s.rb.tail
  · rw [popWhole_of_empty hempty]
    exact ⟨2, .inl rfl, microMany_cons hpo1 <|
      microMany_cons (consTurn_pop_done rfl hB hpo2 (popMicro_po2_of_empty hempty)) rfl⟩
  · have hpo3 : (PopPos.po3 s.rb.head s.rb.tail).inRange s.rb.n = true := by simp [PopPos.inRange, hhead, htail]
    rw [popWhole_of_byte hempty]
    exact ⟨4, .inr rfl, microMany_cons hpo1 <|
      microMany_cons (consTurn_pop_more rfl hB hpo2 (popMicro_po2_of_byte hempty)) <|
      microMany_cons (consTurn_pop_more rfl hB hpo3 rfl) <|
      microMany_cons (consTurn_pop_done rfl hB hpo3 rfl) rfl⟩

/-- A READ_BYTE takes 2 turns when RX is empty and 4 otherwise. -/
theorem microMany_readByte (hB : s.rx.inRange = true) :
    ∃ k, (k = 2 ∨ k = 4) ∧ microMany .fg k (s.withFg (.readByte .po1)) =
      .next (((s.withRx (popWhole s.rx).1).withFg .idle).answer .fg (popWhole s.rx).2.rw) := by
  obtain ⟨hhead, htail⟩ := s.rx.inRange_iff.mp hB
  have hpo2 : (PopPos.po2 s.rx.head).inRange s.rx.n = true := decide_eq_true hhead
  have hpo1 : microTurn .fg (s.withFg (.readByte .po1)) = .next (s.withFg (.readByte (.po2 s.rx.head))) :=
    fgTurn_readByte_more rfl hB rfl rfl
  by_cases hempty : s.rx.head = s.rx.tail
  · rw [popWhole_of_empty hempty]
    exact ⟨2, .inl rfl, microMany_cons hpo1 <|
      microMany_cons (fgTurn_readByte_done rfl hB hpo2 (popMicro_po2_of_empty hempty)) rfl⟩
  · have hpo3 : (PopPos.po3 s.rx.head s.rx.tail).inRange s.rx.n = true := by simp [PopPos.inRange, hhead, htail]
    rw [popWhole_of_byte hempty]
    exact ⟨4, .inr rfl, microMany_cons hpo1 <|
      microMany_cons (fgTurn_readByte_more rfl hB hpo2 (popMicro_po2_of_byte hempty)) <|
      microMany_cons (fgTurn_readByte_more rfl hB hpo3 rfl) <|
      microMany_cons (fgTurn_readByte_done rfl hB hpo3 rfl) rfl⟩

/-- An RX_LEN takes 2 turns. -/
theorem microMany_rxLen (hB : s.rx.inRange = true) :
    microMany .fg 2 (s.withFg (.rxLen .ln1)) = .next ((s.withFg .idle).answer .fg (lengthRw s.rx.occ)) := by
  obtain ⟨hhead, -⟩ := s.rx.inRange_iff.mp hB
  exact microMany_cons (fgTurn_rxLen_ln1 rfl hB) (microMany_cons (fgTurn_rxLen_ln2 rfl hB hhead) rfl)

/-- An RB_LEN at the producer takes 2 turns. -/
theorem microMany_prodLen (hB : s.rb.inRange = true) :
    microMany .prod 2 (s.withProd (.len .ln1)) = .next ((s.withProd .idle).answer .prod (lengthRw s.rb.occ)) := by
  obtain ⟨hhead, -⟩ := s.rb.inRange_iff.mp hB
  have hln1 : microTurn .prod (s.withProd (.len .ln1)) = .next (s.withProd (.len (.ln2 s.rb.head))) :=
    prodTurn_of_inRange nofun (by simp [prodInRange, LenPos.inRange, hB])
  have hln2 : prodInRange (s.withProd (.len (.ln2 s.rb.head))) = true := by
    simp [prodInRange, LenPos.inRange, hB, hhead]
  exact microMany_cons hln1 (microMany_cons (prodTurn_len_done rfl hln2) rfl)

/-- An RB_LEN at the consumer takes 2 turns. -/
theorem microMany_consLen (hB : s.rb.inRange = true) :
    microMany .cons 2 (s.withCons (.len .ln1)) = .next ((s.withCons .idle).answer .cons (lengthRw s.rb.occ)) := by
  obtain ⟨hhead, -⟩ := s.rb.inRange_iff.mp hB
  have hln1 : microTurn .cons (s.withCons (.len .ln1)) = .next (s.withCons (.len (.ln2 s.rb.head))) :=
    consTurn_of_inRange nofun (by simp [consInRange, LenPos.inRange, hB])
  have hln2 : consInRange (s.withCons (.len (.ln2 s.rb.head))) = true := by
    simp [consInRange, LenPos.inRange, hB, hhead]
  exact microMany_cons hln1 (microMany_cons (consTurn_len_done rfl hln2) rfl)

end operations

/-! ## SEND_BYTE, by itself and inside a SEND_LINE -/

theorem RingBuffer.pushed1_inRange {B : RingBuffer} (v : Byte) (hB : B.inRange = true) :
    (B.pushed1 v).inRange = true := by
  obtain ⟨hhead, htail⟩ := B.inRange_iff.mp hB
  exact (B.pushed1 v).inRange_iff.mpr ⟨advance_lt _ (Nat.zero_lt_of_lt hhead), htail⟩

section sends
variable {s : State}

/-- The turns of a SEND_BYTE: 2 when TX is full and 5 otherwise.  `after` is what its last turn goes on to in the
context it stands in. -/
theorem microMany_send {inside : SendPos → FgPos} (hinside : IsSendContext inside)
    {after : PushResult → State → State} (hfg : ∀ r u p, after r (u.withFg p) = after r u)
    (hlast : ∀ {u u' : State} {p : SendPos} {r : PushResult}, u.fg = inside p → u.tx.inRange = true →
      p.inRange u.tx.n = true → sendMicro p u = (u', .done r) → fgTurn u = .next (after r u'))
    (v : Byte) (hB : s.tx.inRange = true) :
    ∃ k, (k = 2 ∨ k = 5) ∧ microMany .fg k (s.withFg (inside (.push (.pu1 v)))) =
      .next (after (sendResult s) (sendEffect v s)) := by
  obtain ⟨hhead, htail⟩ := s.tx.inRange_iff.mp hB
  have hpu2 : (SendPos.push (.pu2 v s.tx.head)).inRange s.tx.n = true := decide_eq_true hhead
  have hpu1 : microTurn .fg (s.withFg (inside (.push (.pu1 v)))) =
      .next (s.withFg (inside (.push (.pu2 v s.tx.head)))) :=
    fgTurn_send_more (s' := s.withFg (inside (.push (.pu1 v)))) hinside rfl hB rfl rfl
  by_cases hfull : advance s.tx.n s.tx.head = s.tx.tail
  · rw [sendResult_of_full hfull, sendEffect_of_full v hfull, ← hfg .full s (inside (.push (.pu2 v s.tx.head)))]
    exact ⟨2, .inl rfl, microMany_cons hpu1 <|
      microMany_cons (hlast rfl hB hpu2 (sendMicro_push_full (pushMicro_pu2_of_full v hfull))) rfl⟩
  · have hnext : advance s.tx.n s.tx.head < s.tx.n := advance_lt _ (Nat.zero_lt_of_lt hhead)
    have hpu3 : (SendPos.push (.pu3 v s.tx.head s.tx.tail (advance s.tx.n s.tx.head))).inRange s.tx.n = true := by
      simp [SendPos.inRange, PushPos.inRange, hhead, htail, hnext]
    rw [sendResult_of_room hfull, sendEffect_of_room v hfull, ← hfg .ok _ (inside .ar1)]
    exact ⟨5, .inr rfl, microMany_cons hpu1 <|
      microMany_cons (fgTurn_send_more hinside rfl hB hpu2 (sendMicro_push_more (pushMicro_pu2_of_room v hfull))) <|
      microMany_cons (fgTurn_send_more hinside rfl hB hpu3 rfl) <|
      microMany_cons (fgTurn_send_more hinside rfl hB hpu3 (sendMicro_push_ok rfl)) <|
      microMany_cons (hlast rfl (RingBuffer.pushed1_inRange v hB) rfl rfl) rfl⟩

/-- A SEND_BYTE by itself. -/
theorem microMany_sendByte (v : Byte) (hB : s.tx.inRange = true) :
    ∃ k, (k = 2 ∨ k = 5) ∧ microMany .fg k (s.withFg (.sendByte (.push (.pu1 v)))) =
      .next (((sendEffect v s).withFg .idle).answer .fg (sendResult s).rw) :=
  microMany_send (after := fun r u => (u.withFg .idle).answer .fg r.rw) (.inl rfl) (fun _ _ _ => rfl)
    fgTurn_sendByte_done v hB

/-- An inner SEND_BYTE of a line, whatever it reports. -/
theorem microMany_inner (b : Byte) (stage : Stage) (rest : List Byte) (hB : s.tx.inRange = true) :
    ∃ k, (k = 2 ∨ k = 5) ∧ microMany .fg k (s.withFg (lineAt (b, stage, rest))) =
      .next (afterInner stage rest (sendEffect b s)) := by
  have hfg (r : PushResult) (u : State) (p : FgPos) : afterInner stage rest (u.withFg p) = afterInner stage rest u := by
    cases stage <;> rfl
  exact microMany_send (after := fun _ u => afterInner stage rest u) (.inr ⟨stage, rest, rfl⟩) hfg
    fgTurn_sendLine_done b hB

theorem sendEffect_tx_inRange (v : Byte) (hB : s.tx.inRange = true) : (sendEffect v s).tx.inRange = true := by
  by_cases hfull : advance s.tx.n s.tx.head = s.tx.tail
  · rwa [sendEffect_of_full v hfull]
  · rw [sendEffect_of_room v hfull]
    exact RingBuffer.pushed1_inRange v hB

/-- The inner SEND_BYTEs of a line, from the first micro-step of one of them: 2 to 5 turns for each byte to send. -/
theorem microMany_line {bytes : List Byte} {x : Byte × Stage × List Byte} (hx : lineBytes x = bytes)
    (hB : s.tx.inRange = true) :
    ∃ k, 2 * bytes.length ≤ k ∧ k ≤ 5 * bytes.length ∧ microMany .fg k (s.withFg (lineAt x)) =
      .next (((sendAll bytes s).withFg .idle).answer .fg (rwOk 0x00#8)) := by
  induction bytes generalizing x s with
  | nil =>
    obtain ⟨b, stage, rest⟩ := x
    rw [lineBytes_eq_cons] at hx
    cases hx
  | cons b bytes ih =>
    obtain ⟨b', stage, rest⟩ := x
    rw [lineBytes_eq_cons] at hx
    obtain ⟨rfl, hrest⟩ := List.cons.inj hx
    obtain ⟨n, hn, hinner⟩ := microMany_inner b' stage rest hB
    rw [List.length_cons, sendAll_cons]
    rw [afterInner] at hinner
    cases hnext : lineNext stage rest with
    | none =>
      rw [hnext] at hrest hinner
      obtain rfl : bytes = [] := hrest.symm
      exact ⟨n, by rw [List.length_nil]; omega, by rw [List.length_nil]; omega, hinner⟩
    | some y =>
      rw [hnext] at hrest hinner
      obtain ⟨k, hlow, hhigh, hline⟩ := ih hrest (sendEffect_tx_inRange b' hB)
      exact ⟨n + k, by omega, by omega, microMany_add hinner hline⟩

/-- A SEND_LINE with a handle: SL0, then the inner SEND_BYTEs of its bytes, CR and LF. -/
theorem microMany_sendLine (bytes : List Byte) (hB : s.tx.inRange = true) :
    ∃ k, 1 + 2 * (bytes.length + 2) ≤ k ∧ k ≤ 1 + 5 * (bytes.length + 2) ∧
      microMany .fg k (s.withFg (.sl0 true bytes)) =
        .next (((sendAll (bytes ++ [Config.cr, Config.lf]) s).withFg .idle).answer .fg (rwOk 0x00#8)) := by
  obtain ⟨k, hlow, hhigh, hline⟩ := microMany_line (lineBytes_lineFirst bytes) hB
  have hlength : (bytes ++ [Config.cr, Config.lf]).length = bytes.length + 2 := List.length_append
  exact ⟨k + 1, by omega, by omega, microMany_cons (fgTurn_sl0 rfl hB) hline⟩

end sends

/-! ## What an operation performed whole has issued -/

section issued
variable {s t : State}

theorem issueFg_of_andThen {p : FgPos} {run : State → State} (h : andThen (issueFg p s) run = .next t) :
    issueFg p s = .next (s.withFg p) ∧ fgInRange (s.withFg p) = true ∧ t = run (s.withFg p) := by
  obtain ⟨s', hissue, ht⟩ := andThen_next h
  obtain ⟨-, -, hrange, rfl⟩ := issueFg_next hissue
  exact ⟨hissue, hrange, ht⟩

theorem issueProd_of_andThen {p : ProdPos} {run : State → State} (h : andThen (issueProd p s) run = .next t) :
    issueProd p s = .next (s.withProd p) ∧ prodInRange (s.withProd p) = true ∧ t = run (s.withProd p) := by
  obtain ⟨s', hissue, ht⟩ := andThen_next h
  obtain ⟨-, hrange, rfl⟩ := issueProd_next hissue
  exact ⟨hissue, hrange, ht⟩

theorem issueCons_of_andThen {p : ConsPos} {run : State → State} (h : andThen (issueCons p s) run = .next t) :
    issueCons p s = .next (s.withCons p) ∧ consInRange (s.withCons p) = true ∧ t = run (s.withCons p) := by
  obtain ⟨s', hissue, ht⟩ := andThen_next h
  obtain ⟨-, hrange, rfl⟩ := issueCons_next hissue
  exact ⟨hissue, hrange, ht⟩

/-- The port says which context performs RB_LEN, whole or issued. -/
theorem rbLen_of_prod (hport : s.rbPort = .prod) :
    exec .rbLen s = andThen (issueProd (.len .ln1) s) (runProd 2) ∧ issue .rbLen s = issueProd (.len .ln1) s := by
  simp [exec, execRbLen, issue, hport]

theorem rbLen_of_cons (hport : s.rbPort = .cons) :
    exec .rbLen s = andThen (issueCons (.len .ln1) s) (runCons 2) ∧ issue .rbLen s = issueCons (.len .ln1) s := by
  simp [exec, execRbLen, issue, hport]

end issued

/-- Settles O28: the turns of each operation, one after the other, end where its run does. -/
theorem wholeOperationIsItsMicroSteps : Obligations.WholeOperationIsItsMicroSteps := by
  intro s t
  refine ⟨fun v h => ?_, fun h => ?_, fun h => ?_, fun h => ?_, fun h => ?_, fun v h => ?_, fun h => ?_, fun h => ?_⟩
  · obtain ⟨hissue, hrange, -⟩ := issueFg_of_andThen h
    obtain ⟨hB, -⟩ := Bool.and_eq_true_iff.mp hrange
    obtain rfl := execSendByte_next h
    exact ⟨_, hissue, rfl, microMany_sendByte v hB⟩
  · obtain ⟨hissue, hB, -⟩ := issueFg_of_andThen h
    obtain rfl := execSendLine_next h
    exact ⟨_, hissue, rfl, microMany_sendLine s.lineData hB⟩
  · obtain ⟨hissue, -, -⟩ := issueFg_of_andThen h
    obtain rfl := execSendLine_noHandle_next h
    exact ⟨_, hissue, rfl, rfl⟩
  · obtain ⟨hissue, hrange, -⟩ := issueFg_of_andThen h
    obtain ⟨hB, -⟩ := Bool.and_eq_true_iff.mp hrange
    obtain rfl := execReadByte_next h
    exact ⟨_, hissue, rfl, microMany_readByte hB⟩
  · obtain ⟨hissue, hrange, -⟩ := issueFg_of_andThen h
    obtain ⟨hB, -⟩ := Bool.and_eq_true_iff.mp hrange
    obtain rfl := execRxLen_next h
    exact ⟨_, hissue, rfl, microMany_rxLen hB⟩
  · obtain ⟨hissue, hrange, -⟩ := issueProd_of_andThen h
    obtain ⟨hB, -⟩ := Bool.and_eq_true_iff.mp hrange
    obtain rfl := execRbPush_next h
    exact ⟨_, hissue, rfl, microMany_push v hB⟩
  · obtain ⟨hissue, hrange, -⟩ := issueCons_of_andThen h
    obtain ⟨hB, -⟩ := Bool.and_eq_true_iff.mp hrange
    obtain rfl := execRbPop_next h
    exact ⟨_, hissue, rfl, microMany_pop hB⟩
  · cases hport : s.rbPort with
    | prod =>
      obtain ⟨hexec, hissued⟩ := rbLen_of_prod hport
      rw [hexec] at h
      obtain ⟨hissue, hrange, rfl⟩ := issueProd_of_andThen h
      obtain ⟨hB, -⟩ := Bool.and_eq_true_iff.mp hrange
      exact ⟨_, hissued.trans hissue, fun _ => ⟨rfl, microMany_prodLen hB⟩, nofun⟩
    | cons =>
      obtain ⟨hexec, hissued⟩ := rbLen_of_cons hport
      rw [hexec] at h
      obtain ⟨hissue, hrange, rfl⟩ := issueCons_of_andThen h
      obtain ⟨hB, -⟩ := Bool.and_eq_true_iff.mp hrange
      exact ⟨_, hissued.trans hissue, nofun, fun _ => ⟨rfl, microMany_consLen hB⟩⟩

end Sys2Proof.Machine
end

section
/-! The schedule (R203, logs 6 and 19): what a step does with a turn its port takes and with no turn waiting, and the
commands a busy context refuses, whole or only issued (R201, R268). -/

namespace Sys2Proof.Machine

/-! ## The first turn of the schedule -/

/-- A step whose first turn gives a port an operation it takes performs it there (R84, R87). -/
theorem step_accepted {p : Port} {m : WordMode} {cw : Word} {line : List Byte} {rest : List Turn} {i : Instr}
    {s : State} (hagenda : s.agenda = .word p m cw line :: rest) (hdecode : decode cw = .ok i)
    (haccepts : p.accepts i = true) :
    step s = perform m i (present p line { s with agenda := rest }) := by
  rw [step_word hagenda, deliver_accepted hdecode haccepts]

theorem portOf_accepts (i : Instr) (s : State) : (portOf i s).accepts i = true := by
  cases i with
  | rbLen =>
    rw [portOf]
    cases s.rbPort <;> rfl
  | _ => rfl

theorem decode_of_decodeTableWord {nbits w : Nat} {i : Instr} (h : decodeTableWord nbits w = some i) :
    decode (tableWord nbits w) = .ok i := by
  unfold decodeTableWord at h
  split_ifs at h
  cases hdecode : decode (tableWord nbits w) with
  | ok j =>
    rw [hdecode] at h
    rw [Option.some.inj h]
  | error e =>
    rw [hdecode] at h
    cases h

/-- Settles O6: the port takes the word, and a table word is given to the port its operation belongs to. -/
theorem stepPerformsTheDecodedOperation : Obligations.StepPerformsTheDecodedOperation := by
  refine ⟨fun s p cw line rest i hagenda hdecode haccepts => step_accepted hagenda hdecode haccepts,
    fun s nbits w i h => ?_⟩
  have hdecode := decode_of_decodeTableWord h
  have hport : portOfWord (tableWord nbits w) s = portOf i s := by rw [portOfWord, hdecode]
  have hagenda : (s.withFetchWord nbits w).agenda =
      .word (portOf i s) .whole (tableWord nbits w) s.lineData :: s.agenda := by
    rw [State.withFetchWord, wordTurn, hport]
  exact step_accepted hagenda hdecode (portOf_accepts i s)

theorem step_micro {c : Context} {rest : List Turn} {s : State} (hagenda : s.agenda = .micro c :: rest) :
    step s = microTurn c { s with agenda := rest } := by
  unfold step State.restAgenda
  rw [hagenda]
  rfl

theorem step_noTurn {s : State} (hagenda : s.agenda = []) : step s = noTurn s := by
  unfold step
  rw [hagenda]

/-- Settles O7: an issued word, a micro-step, or no turn waiting. -/
theorem stepFollowsTheSchedule : Obligations.StepFollowsTheSchedule := by
  refine ⟨fun s p cw line rest i hagenda hdecode haccepts => step_accepted hagenda hdecode haccepts,
    fun s c rest hagenda => step_micro hagenda, fun s hagenda => ?_⟩
  rw [step_noTurn hagenda]
  refine ⟨fun hfg => ?_, fun hfg hprod => ?_, fun hfg hprod hcons => ?_, fun hfg hprod hcons => ?_⟩
  · simp [noTurn, hfg]
  · simp [noTurn, hfg, hprod]
  · simp [noTurn, hfg, hprod, hcons]
  · simp [noTurn, hfg, hprod, hcons]

/-! ## A busy context (R201, R268) -/

section busy
variable {s : State}

theorem issueFg_of_busy (hinit : s.inited = true) (hbusy : s.fg ≠ .idle) (p : FgPos) :
    issueFg p s = .refused .contextBusy := by
  simp [issueFg, hinit, hbusy]

theorem issueProd_of_busy (hbusy : s.prod ≠ .idle) (p : ProdPos) : issueProd p s = .refused .contextBusy := by
  simp [issueProd, hbusy]

theorem issueCons_of_busy (hbusy : s.cons ≠ .idle) (p : ConsPos) : issueCons p s = .refused .contextBusy := by
  simp [issueCons, hbusy]

theorem exec_init_of_busy (hinit : s.inited = false) (hgie : s.gie = false) (hbusy : s.fg ≠ .idle) :
    exec .init s = .refused .contextBusy := by
  simp [exec, execInit, hinit, hgie, hbusy]

/-- What refuses the issue of an operation refuses the whole operation: it begins with its issue (R87). -/
theorem perform_of_issue_refused {i : Instr} {e : Refusal} (h : issue i s = .refused e) (m : WordMode) :
    perform m i s = .refused e := by
  have hrun {r : Result} {run : State → State} (hr : r = .refused e) : andThen r run = .refused e := by
    rw [hr, andThen]
  cases m with
  | issue => exact h
  | whole =>
    cases i with
    | rbLen =>
      cases hport : s.rbPort with
      | prod =>
        obtain ⟨hexec, hissue⟩ := rbLen_of_prod hport
        exact hexec.trans (hrun (hissue.symm.trans h))
      | cons =>
        obtain ⟨hexec, hissue⟩ := rbLen_of_cons hport
        exact hexec.trans (hrun (hissue.symm.trans h))
    | rbPush | rbPop | sendByte | sendLine | readByte | rxLen => exact hrun h
    | init | irqRx | irqTx | writeTxRegister | readRxRegister | setTxInterruptEnabled | queryFramingError
    | queryOverrun | rxDisable | rxEnable | configureLine | envTxReady | envRxArrive | hostGie => exact h

end busy

/-- Settles O12: each of these operations is refused when it is issued. -/
theorem busyContextTakesNoCommand : Obligations.BusyContextTakesNoCommand := by
  refine fun s m => ⟨fun hinit hbusy => ?_, fun hinit hgie hbusy => ?_, fun hbusy => ⟨fun v => ?_, fun hport => ?_⟩,
    fun hbusy => ⟨?_, fun hport => ?_⟩⟩
  · have hfg := issueFg_of_busy hinit hbusy
    exact ⟨fun v => perform_of_issue_refused (i := .sendByte v) (hfg _) m,
      fun h => perform_of_issue_refused (i := .sendLine h) (hfg _) m,
      perform_of_issue_refused (i := .readByte) (hfg _) m, perform_of_issue_refused (i := .rxLen) (hfg _) m⟩
  · exact perform_of_issue_refused (i := .init) (exec_init_of_busy hinit hgie hbusy) m
  · exact perform_of_issue_refused (i := .rbPush v) (issueProd_of_busy hbusy _) m
  · exact perform_of_issue_refused ((rbLen_of_prod hport).2.trans (issueProd_of_busy hbusy _)) m
  · exact perform_of_issue_refused (i := .rbPop) (issueCons_of_busy hbusy _) m
  · exact perform_of_issue_refused ((rbLen_of_cons hport).2.trans (issueCons_of_busy hbusy _)) m

end Sys2Proof.Machine
end

section
/-! The collaborator's primitives put to its port, the environment and the host (R191 to R201): each operation as one
outcome, by the conditions its rule gives. -/

namespace Sys2Proof.Machine

section operations
variable {s t : State}

theorem exec_writeTxRegister_of_ready (v : Byte) (hready : s.hal.txRegEmpty = true) :
    exec (.writeTxRegister v) s = .next ((halWriteTxRegister v s).answer .hal (rwOk 0x00#8)) := if_pos hready

theorem exec_writeTxRegister_of_busy (v : Byte) (hbusy : s.hal.txRegEmpty = false) :
    exec (.writeTxRegister v) s = .fault .txRegisterNotReady := by
  simp [exec, execWriteTxRegister, hbusy]

/-- With a sample waiting, each read of the receive register returns its part of the sample (R192, R194, R195). -/
theorem halReads_of_sample {x : Sample} (hx : s.hal.rxSample = some x) :
    halReadRxRegister s = (x.data, s.withHal s.hal.readRxRegister) ∧
    halQueryFramingError s = (x.fe, s.withHal s.hal.queryFramingError) ∧
    halQueryOverrun s = (x.ovr, s.withHal s.hal.queryOverrun) := by
  simp [halReadRxRegister, halQueryFramingError, halQueryOverrun, hx]

/-- With no sample waiting, each read of the receive register returns a free value and uses one draw (log 10). -/
theorem halReads_of_none (hx : s.hal.rxSample = none) :
    halReadRxRegister s = (Config.drawByte s.draws, (s.withHal s.hal.readRxRegister).drawn) ∧
    halQueryFramingError s = (Config.drawFlag s.draws, (s.withHal s.hal.queryFramingError).drawn) ∧
    halQueryOverrun s = (Config.drawFlag s.draws, (s.withHal s.hal.queryOverrun).drawn) := by
  simp [halReadRxRegister, halQueryFramingError, halQueryOverrun, hx]

theorem exec_envTxReady_of_enabled (hconf : s.hal.configured = true) (hbusy : s.hal.txRegEmpty = false) :
    exec .envTxReady s = .next s.txReady := by
  simp [exec, execEnvTxReady, hconf, hbusy, State.txReady]

theorem exec_envTxReady_of_disabled (h : s.hal.configured = false ∨ s.hal.txRegEmpty = true) :
    exec .envTxReady s = .refused .txReadyNotEnabled := by
  rcases h with hconf | hready
  · simp [exec, execEnvTxReady, hconf]
  · simp [exec, execEnvTxReady, hready]

/-- The state after ENV_RX_ARRIVE of the sample `x` (R200). -/
def State.arrived (s : State) (x : Sample) : State :=
  s.withHal { s.hal with rxSample := some x, rxArrived := s.hal.rxArrived ++ [x] }

theorem exec_envRxArrive_of_enabled (f o : Bool) (d : Byte) (hconf : s.hal.configured = true)
    (henabled : s.hal.rxEnabled = true) : exec (.envRxArrive f o d) s = .next (s.arrived ⟨d, f, o⟩) := by
  simp [exec, execEnvRxArrive, hconf, henabled, State.arrived]

theorem exec_envRxArrive_of_disabled (f o : Bool) (d : Byte)
    (h : s.hal.configured = false ∨ s.hal.rxEnabled = false) :
    exec (.envRxArrive f o d) s = .refused .rxArriveNotEnabled := by
  rcases h with hconf | hoff
  · simp [exec, execEnvRxArrive, hconf]
  · simp [exec, execEnvRxArrive, hoff]

/-! What an operation with a condition leaves when it answers a next state -/

theorem execWriteTxRegister_next {v : Byte} (h : exec (.writeTxRegister v) s = .next t) :
    t = (halWriteTxRegister v s).answer .hal (rwOk 0x00#8) := by
  cases hready : s.hal.txRegEmpty with
  | true => exact Host.Outcome.next.inj (h.symm.trans (exec_writeTxRegister_of_ready v hready))
  | false => cases h.symm.trans (exec_writeTxRegister_of_busy v hready)

theorem execEnvTxReady_next (h : exec .envTxReady s = .next t) : t = s.txReady := by
  change execEnvTxReady s = .next t at h
  unfold execEnvTxReady at h
  split_ifs at h
  exact (Host.Outcome.next.inj h).symm

theorem execEnvRxArrive_next {f o : Bool} {d : Byte} (h : exec (.envRxArrive f o d) s = .next t) :
    t = s.arrived ⟨d, f, o⟩ := by
  change execEnvRxArrive f o d s = .next t at h
  unfold execEnvRxArrive at h
  split_ifs at h
  exact (Host.Outcome.next.inj h).symm

end operations

/-- R82: a flag's response word. -/
theorem flagRw_eq (b : Bool) : flagRw b = if b then 0x0001#16 else 0x0000#16 := by cases b <;> rfl

theorem flagRw_eq_or (b : Bool) : flagRw b = 0x0000#16 ∨ flagRw b = 0x0001#16 := by
  cases b with
  | false => exact .inl rfl
  | true => exact .inr rfl

/-- Settles O40: the write's one condition is that the register is ready. -/
theorem writeTxRegisterLogsTheByte : Obligations.WriteTxRegisterLogsTheByte :=
  fun _ v => ⟨exec_writeTxRegister_of_ready v, exec_writeTxRegister_of_busy v⟩

/-- Settles O41: the read returns the waiting sample's byte. -/
theorem readRxRegisterConsumesTheSample : Obligations.ReadRxRegisterConsumesTheSample := by
  intro s x hx
  obtain ⟨hread, -, -⟩ := halReads_of_sample hx
  rw [exec, execReadRxRegister, hread]
  rfl

/-- Settles O42: SET_TX_INTERRUPT_ENABLED has no condition, and its primitive writes the mask and the log. -/
theorem setTxInterruptEnabledWritesTheMask : Obligations.SetTxInterruptEnabledWritesTheMask := fun _ _ => rfl

/-- Settles O43: the queries return the waiting sample's two flags. -/
theorem flagQueriesReturnTheSampleFlags : Obligations.FlagQueriesReturnTheSampleFlags := by
  intro s x hx
  obtain ⟨-, hframing, hoverrun⟩ := halReads_of_sample hx
  rw [← flagRw_eq, ← flagRw_eq, exec, execQueryFramingError, hframing, exec, execQueryOverrun, hoverrun]
  exact ⟨rfl, rfl⟩

/-- Settles O44: the value read is the draw, and the sample that is not there stays away. -/
theorem emptyReceiveRegisterReadsAFreeValue : Obligations.EmptyReceiveRegisterReadsAFreeValue := by
  intro s hx
  obtain ⟨hread, hframing, hoverrun⟩ := halReads_of_none hx
  have hkept : s.hal.readRxRegister = { s.hal with halLog := s.hal.halLog ++ [.readRxRegister] } := by
    rw [Collaborator.readRxRegister, ← hx]
  refine ⟨⟨Config.drawByte s.draws, ?_⟩, ⟨_, flagRw_eq_or (Config.drawFlag s.draws), ?_⟩,
    ⟨_, flagRw_eq_or (Config.drawFlag s.draws), ?_⟩⟩
  · rw [exec, execReadRxRegister, hread, hkept]
    rfl
  · rw [exec, execQueryFramingError, hframing]
    rfl
  · rw [exec, execQueryOverrun, hoverrun]
    rfl

/-- Settles O45: neither half of the receiver's reset cycle has a condition. -/
theorem receiverResetCycleHalves : Obligations.ReceiverResetCycleHalves := fun _ => ⟨rfl, rfl⟩

/-- Settles O46: CONFIGURE_LINE has no condition, and its primitive uses the next draw. -/
theorem configureLineTurnsTheReceiverOn : Obligations.ConfigureLineTurnsTheReceiverOn := fun _ => rfl

/-- Settles O47: with the register ready, `req_tx` is `tx_armed` (R229). -/
theorem envTxReadyMakesTheRegisterReady : Obligations.EnvTxReadyMakesTheRegisterReady := by
  refine fun s => ⟨fun hconf hbusy => ?_, exec_envTxReady_of_disabled⟩
  refine ⟨exec_envTxReady_of_enabled hconf hbusy, fun t ht => ?_⟩
  obtain rfl := execEnvTxReady_next ht
  exact Bool.and_true _

/-- Settles O48: with the receiver on and a sample waiting, `req_rx` is `rx_irq_enabled` (R229). -/
theorem envRxArrivePutsTheSample : Obligations.EnvRxArrivePutsTheSample := by
  refine fun s f o d => ⟨fun hconf henabled => ?_, exec_envRxArrive_of_disabled f o d⟩
  refine ⟨exec_envRxArrive_of_enabled f o d hconf henabled, fun t ht => ?_⟩
  obtain rfl := execEnvRxArrive_next ht
  simp [Collaborator.reqRx, State.arrived, henabled]

/-- Settles O49: HOST_GIE has no condition. -/
theorem hostGieWritesTheGlobalEnable : Obligations.HostGieWritesTheGlobalEnable := fun _ _ => rfl

end Sys2Proof.Machine
end

section
/-! What has been observed is never taken back (R204, R202): the responses, `tx_log` and `hal_log` before a step are
prefixes of those after it, for every primitive, micro-step, handler, operation and turn. -/

namespace Sys2Proof.Machine

/-- The responses, `tx_log` and `hal_log` of `s` are prefixes of those of `t`. -/
structure State.GrowsTo (s t : State) : Prop where
  resp : s.respLog <+: t.respLog
  tx : s.hal.txLog <+: t.hal.txLog
  hal : s.hal.halLog <+: t.hal.halLog

section growth
variable {s t u : State}

theorem State.GrowsTo.refl (s : State) : s.GrowsTo s := ⟨List.prefix_rfl, List.prefix_rfl, List.prefix_rfl⟩

theorem State.GrowsTo.trans (h : s.GrowsTo t) (h' : t.GrowsTo u) : s.GrowsTo u :=
  ⟨h.resp.trans h'.resp, h.tx.trans h'.tx, h.hal.trans h'.hal⟩

/-- A state with the same logs. -/
theorem State.GrowsTo.sameLogs (hresp : t.respLog = s.respLog) (htx : t.hal.txLog = s.hal.txLog)
    (hhal : t.hal.halLog = s.hal.halLog) : s.GrowsTo t :=
  ⟨by rw [hresp], by rw [htx], by rw [hhal]⟩

/-- A state with one more primitive call, which put no byte on the wire. -/
theorem State.GrowsTo.called {call : HalCall} (hresp : t.respLog = s.respLog) (htx : t.hal.txLog = s.hal.txLog)
    (hhal : t.hal.halLog = s.hal.halLog ++ [call]) : s.GrowsTo t :=
  ⟨by rw [hresp], by rw [htx], hhal ▸ List.prefix_append ..⟩

theorem State.GrowsTo.withFg (h : s.GrowsTo t) (p : FgPos) : s.GrowsTo (t.withFg p) := ⟨h.resp, h.tx, h.hal⟩

theorem State.GrowsTo.answer (h : s.GrowsTo t) (p : Port) (rw : Word) : s.GrowsTo (t.answer p rw) :=
  ⟨h.resp.trans (List.prefix_append ..), h.tx, h.hal⟩

/-- A state with one more response and the same collaborator. -/
theorem State.GrowsTo.answered {x : Port × Word} (hresp : t.respLog = s.respLog ++ [x]) (hhal : t.hal = s.hal) :
    s.GrowsTo t :=
  ⟨hresp ▸ List.prefix_append .., by rw [hhal], by rw [hhal]⟩

end growth

/-! ## The collaborator's primitives (R190 to R198) -/

section primitives
variable (s : State)

theorem halWriteTxRegister_growsTo (v : Byte) : s.GrowsTo (halWriteTxRegister v s) :=
  ⟨List.prefix_rfl, List.prefix_append .., List.prefix_append ..⟩

theorem halSetTxInterruptEnabled_growsTo (b : Bool) : s.GrowsTo (halSetTxInterruptEnabled b s) := .called rfl rfl rfl
theorem halRxDisable_growsTo : s.GrowsTo (halRxDisable s) := .called rfl rfl rfl
theorem halRxEnable_growsTo : s.GrowsTo (halRxEnable s) := .called rfl rfl rfl
theorem halConfigureLine_growsTo : s.GrowsTo (halConfigureLine s) := .called rfl rfl rfl

/-- A primitive that only reads the collaborator, with or without a sample waiting. -/
theorem halReads_growsTo :
    s.GrowsTo (halReadRxRegister s).2 ∧ s.GrowsTo (halQueryFramingError s).2 ∧ s.GrowsTo (halQueryOverrun s).2 := by
  unfold halReadRxRegister halQueryFramingError halQueryOverrun
  cases s.hal.rxSample <;> exact ⟨.called rfl rfl rfl, .called rfl rfl rfl, .called rfl rfl rfl⟩

end primitives

/-! ## Micro-steps -/

theorem sendMicro_growsTo (p : SendPos) (s : State) : s.GrowsTo (sendMicro p s).1 := by
  cases p with
  | ar1 => exact halSetTxInterruptEnabled_growsTo s true
  | push q =>
    dsimp only [sendMicro]
    rcases pushMicro q s.tx with ⟨B, q' | _ | _⟩ <;> exact .sameLogs rfl rfl rfl

theorem fgMicro_growsTo (s : State) : s.GrowsTo (fgMicro s) := by
  unfold fgMicro
  cases s.fg with
  | idle => exact .refl s
  | sendByte p =>
    have hp := sendMicro_growsTo p s
    dsimp only
    generalize sendMicro p s = r at hp ⊢
    rcases r with ⟨s', p' | r⟩
    · exact hp.withFg _
    · exact (hp.withFg _).answer _ _
  | sl0 hf bytes =>
    cases hf with
    | true => exact .sameLogs rfl rfl rfl
    | false => exact .answered rfl rfl
  | sendLine p stage rest =>
    have hp := sendMicro_growsTo p s
    dsimp only
    generalize sendMicro p s = r at hp ⊢
    rcases r with ⟨s', p' | r⟩
    · exact hp.withFg _
    · dsimp only
      cases lineNext stage rest with
      | some x => exact hp.withFg _
      | none => exact (hp.withFg _).answer _ _
  | readByte p =>
    dsimp only
    rcases popMicro p s.rx with ⟨B, p' | r⟩
    · exact .sameLogs rfl rfl rfl
    · exact .answered rfl rfl
  | rxLen p =>
    dsimp only
    cases lenMicro p s.rx with
    | more p' => exact .sameLogs rfl rfl rfl
    | done k => exact .answered rfl rfl

theorem prodMicro_growsTo (s : State) : s.GrowsTo (prodMicro s) := by
  unfold prodMicro
  cases s.prod with
  | idle => exact .refl s
  | push p =>
    dsimp only
    rcases pushMicro p s.rb with ⟨B, p' | r⟩
    · exact .sameLogs rfl rfl rfl
    · exact .answered rfl rfl
  | len p =>
    dsimp only
    cases lenMicro p s.rb with
    | more p' => exact .sameLogs rfl rfl rfl
    | done k => exact .answered rfl rfl

theorem consMicro_growsTo (s : State) : s.GrowsTo (consMicro s) := by
  unfold consMicro
  cases s.cons with
  | idle => exact .refl s
  | pop p =>
    dsimp only
    rcases popMicro p s.rb with ⟨B, p' | r⟩
    · exact .sameLogs rfl rfl rfl
    · exact .answered rfl rfl
  | len p =>
    dsimp only
    cases lenMicro p s.rb with
    | more p' => exact .sameLogs rfl rfl rfl
    | done k => exact .answered rfl rfl

/-! ## Runs of a context, and the handlers -/

section operations
variable {s t : State}

theorem andThen_runFg_growsTo {p : FgPos} {k : Nat} (h : andThen (issueFg p s) (runFg k) = .next t) : s.GrowsTo t := by
  obtain ⟨-, -, rfl⟩ := issueFg_of_andThen h
  exact runFg_keeps (P := s.GrowsTo) (fun u hu _ => hu.trans (fgMicro_growsTo u)) k _ ((State.GrowsTo.refl s).withFg p)

theorem andThen_runProd_growsTo {p : ProdPos} {k : Nat} (h : andThen (issueProd p s) (runProd k) = .next t) :
    s.GrowsTo t := by
  obtain ⟨-, -, rfl⟩ := issueProd_of_andThen h
  exact runProd_keeps (P := s.GrowsTo) (fun u hu _ => hu.trans (prodMicro_growsTo u)) k _ (.sameLogs rfl rfl rfl)

theorem andThen_runCons_growsTo {p : ConsPos} {k : Nat} (h : andThen (issueCons p s) (runCons k) = .next t) :
    s.GrowsTo t := by
  obtain ⟨-, -, rfl⟩ := issueCons_of_andThen h
  exact runCons_keeps (P := s.GrowsTo) (fun u hu _ => hu.trans (consMicro_growsTo u)) k _ (.sameLogs rfl rfl rfl)

theorem irqRxFinish_growsTo (x : Sample) (s : State) : s.GrowsTo (irqRxFinish x s) := by
  have hrestart (u : State) : u.GrowsTo (if x.ovr then halRxEnable (halRxDisable u) else u) := by
    split_ifs
    · exact (halRxDisable_growsTo u).trans (halRxEnable_growsTo _)
    · exact .refl u
  refine State.GrowsTo.trans ?_ (hrestart _)
  split_ifs <;> exact .sameLogs rfl rfl rfl

theorem irqRxBody_growsTo (s : State) : s.GrowsTo (irqRxBody s) := by
  obtain ⟨-, hframing, -⟩ := halReads_growsTo s
  obtain ⟨-, -, hoverrun⟩ := halReads_growsTo (halQueryFramingError s).2
  obtain ⟨hread, -, -⟩ := halReads_growsTo (halQueryOverrun (halQueryFramingError s).2).2
  rw [irqRxBody_eq]
  exact ((hframing.trans hoverrun).trans hread).trans (irqRxFinish_growsTo _ _)

theorem irqTxBody_growsTo (s : State) : s.GrowsTo (irqTxBody s) := by
  have hwrite : s.GrowsTo (irqTxWrite s) :=
    State.GrowsTo.trans (t := s.withTx s.tx.popped1) (.sameLogs rfl rfl rfl)
      (halWriteTxRegister_growsTo (s.withTx s.tx.popped1) (s.tx.readSlot s.tx.tail))
  by_cases hempty : s.tx.head = s.tx.tail
  · rw [irqTxBody_of_empty hempty]
    exact halSetTxInterruptEnabled_growsTo s false
  · rw [irqTxBody_of_byte hempty]
    split_ifs
    · exact hwrite.trans (halSetTxInterruptEnabled_growsTo _ false)
    · exact hwrite

theorem initBody_growsTo (s : State) : s.GrowsTo (initBody s) := by
  have hcalls := (halConfigureLine_growsTo s).trans (halSetTxInterruptEnabled_growsTo _ false)
  exact hcalls.trans (.answered rfl rfl)

end operations

/-! ## Operations, turns and steps -/

section steps
variable {i : Instr} {s t : State}

theorem exec_growsTo (h : exec i s = .next t) : s.GrowsTo t := by
  cases i with
  | rbPush v => exact andThen_runProd_growsTo h
  | rbPop => exact andThen_runCons_growsTo h
  | rbLen =>
    cases hport : s.rbPort with
    | prod =>
      rw [(rbLen_of_prod hport).1] at h
      exact andThen_runProd_growsTo h
    | cons =>
      rw [(rbLen_of_cons hport).1] at h
      exact andThen_runCons_growsTo h
  | init =>
    obtain rfl := execInit_next h
    exact initBody_growsTo s
  | sendByte | sendLine | readByte | rxLen => exact andThen_runFg_growsTo h
  | irqRx =>
    obtain ⟨-, -, -, -, rfl⟩ := takeHandler_next h
    exact irqRxBody_growsTo s
  | irqTx =>
    obtain ⟨-, -, -, -, rfl⟩ := takeHandler_next h
    exact irqTxBody_growsTo s
  | writeTxRegister v =>
    obtain rfl := execWriteTxRegister_next h
    exact (halWriteTxRegister_growsTo s v).answer _ _
  | readRxRegister =>
    cases h
    obtain ⟨hread, -, -⟩ := halReads_growsTo s
    exact hread.answer _ _
  | queryFramingError =>
    cases h
    obtain ⟨-, hframing, -⟩ := halReads_growsTo s
    exact hframing.answer _ _
  | queryOverrun =>
    cases h
    obtain ⟨-, -, hoverrun⟩ := halReads_growsTo s
    exact hoverrun.answer _ _
  | setTxInterruptEnabled b =>
    cases h
    exact (halSetTxInterruptEnabled_growsTo s b).answer _ _
  | rxDisable =>
    cases h
    exact (halRxDisable_growsTo s).answer _ _
  | rxEnable =>
    cases h
    exact (halRxEnable_growsTo s).answer _ _
  | configureLine =>
    cases h
    exact (halConfigureLine_growsTo s).answer _ _
  | envTxReady =>
    obtain rfl := execEnvTxReady_next h
    exact .sameLogs rfl rfl rfl
  | envRxArrive f o d =>
    obtain rfl := execEnvRxArrive_next h
    exact .sameLogs rfl rfl rfl
  | hostGie b =>
    cases h
    exact .sameLogs rfl rfl rfl

theorem perform_growsTo {m : WordMode} (h : perform m i s = .next t) : s.GrowsTo t := by
  cases m with
  | whole => exact exec_growsTo h
  | issue =>
    rcases issue_next h with ⟨p, rfl⟩ | ⟨p, rfl⟩ | ⟨p, rfl⟩ | h
    · exact .sameLogs rfl rfl rfl
    · exact .sameLogs rfl rfl rfl
    · exact .sameLogs rfl rfl rfl
    · exact exec_growsTo h

theorem microTurn_growsTo {c : Context} (h : microTurn c s = .next t) : s.GrowsTo t := by
  cases c with
  | fg =>
    obtain ⟨-, -, rfl⟩ := fgTurn_next h
    exact fgMicro_growsTo s
  | prod =>
    obtain ⟨-, -, rfl⟩ := prodTurn_next h
    exact prodMicro_growsTo s
  | cons =>
    obtain ⟨-, -, rfl⟩ := consTurn_next h
    exact consMicro_growsTo s

theorem deliver_growsTo {p : Port} {m : WordMode} {cw : Word} {line : List Byte}
    (h : deliver p m cw line s = .next t) : s.GrowsTo t := by
  rcases deliver_next h with rfl | ⟨i, -, -, hperform⟩
  · exact (State.GrowsTo.refl s).answer _ _
  · exact State.GrowsTo.trans (t := present p line s) (.sameLogs rfl rfl rfl) (perform_growsTo hperform)

theorem step_growsTo (h : step s = .next t) : s.GrowsTo t := by
  have hrest : s.GrowsTo s.restAgenda := .sameLogs rfl rfl rfl
  rcases step_next h with rfl | ⟨c, hturn⟩ | ⟨p, m, cw, line, rest, -, hword⟩
  · exact hrest
  · exact hrest.trans (microTurn_growsTo hturn)
  · exact hrest.trans (deliver_growsTo hword)

end steps

/-- Settles O54: every turn only appends to the responses and to the two logs. -/
theorem observationsOnlyGrow : Obligations.ObservationsOnlyGrow := by
  intro s t h
  obtain ⟨hresp, htx, hhal⟩ := step_growsTo h
  exact ⟨hresp, htx, hhal⟩

end Sys2Proof.Machine
end

section
/-! The exceptions of 60_exceptions.md: SEND_LINE with no data handle (R222), and the two handlers.  R229 as a predicate
of the state for each handler, what each firing leaves as a function of the handler's own half of the state, and so the
two orders of the handlers (R231). -/

namespace Sys2Proof.Machine

/-! ## SEND_LINE with no data handle (R222) -/

/-- Settles O23: SL0 without a handle ends the line at once, and needs no index of TX. -/
theorem sendLineWithoutHandleEnqueuesNothing : Obligations.SendLineWithoutHandleEnqueuesNothing := by
  intro s hinit hidle
  have hrange : fgInRange (s.withFg (.sl0 false (lineOperand false s))) = true := by simp [fgInRange]
  have hrun : runFg (FgPos.sl0 false (lineOperand false s)).bound (s.withFg (.sl0 false (lineOperand false s))) =
      (s.withFg .idle).answer .fg rwInvalidInput := rfl
  rw [exec, execSendLine, andThen_issueFg_of_idle hinit hidle hrange, hrun, State.withFg_of_idle hidle]
  rfl

/-! ## When a handler is taken (R229) -/

/-- R229 for IRQ_RX with sample `x` waiting, and RX's indices in range (R51). -/
structure State.EnablesIrqRx (s : State) (x : Sample) : Prop where
  inited : s.inited = true
  gie : s.gie = true
  rxIrqEnabled : s.hal.rxIrqEnabled = true
  rxEnabled : s.hal.rxEnabled = true
  rxSample : s.hal.rxSample = some x
  inRange : s.rx.inRange = true

/-- R229 for IRQ_TX, and TX's indices in range (R51). -/
structure State.EnablesIrqTx (s : State) : Prop where
  inited : s.inited = true
  gie : s.gie = true
  txArmed : s.hal.txArmed = true
  txRegEmpty : s.hal.txRegEmpty = true
  inRange : s.tx.inRange = true

section taken
variable {s t : State}

theorem enablesIrqRx_of_request (hinit : s.inited = true) (hgie : s.gie = true) (hreq : s.hal.reqRx = true)
    (hB : s.rx.inRange = true) : ∃ x, s.EnablesIrqRx x := by
  simp only [Collaborator.reqRx, Bool.and_eq_true] at hreq
  obtain ⟨⟨hirq, henabled⟩, hsome⟩ := hreq
  obtain ⟨x, hx⟩ := Option.isSome_iff_exists.mp hsome
  exact ⟨x, hinit, hgie, hirq, henabled, hx, hB⟩

theorem enablesIrqTx_of_request (hinit : s.inited = true) (hgie : s.gie = true) (hreq : s.hal.reqTx = true)
    (hB : s.tx.inRange = true) : s.EnablesIrqTx := by
  obtain ⟨harmed, hready⟩ := Bool.and_eq_true_iff.mp hreq
  exact ⟨hinit, hgie, harmed, hready, hB⟩

theorem execIrqRx_enabled (h : exec .irqRx s = .next t) : ∃ x, s.EnablesIrqRx x := by
  obtain ⟨hinit, hreq, hgie, hB, -⟩ := takeHandler_next h
  exact enablesIrqRx_of_request hinit hgie hreq hB

theorem execIrqTx_enabled (h : exec .irqTx s = .next t) : s.EnablesIrqTx := by
  obtain ⟨hinit, hreq, hgie, hB, -⟩ := takeHandler_next h
  exact enablesIrqTx_of_request hinit hgie hreq hB

/-- After INIT, without `gie` or without its request, a handler is not taken (R229). -/
theorem takeHandler_notTaken {req : Bool} (hinit : s.inited = true) (h : s.gie = false ∨ req = false) (rng : Bool)
    (body : State → State) : takeHandler req rng body s = .refused .handlerNotTaken := by
  rcases h with hgie | hreq
  · simp [takeHandler, hinit, hgie]
  · simp [takeHandler, hinit, hreq]

end taken

/-- Settles O32: a next state means that R229 held; when it does not hold, the handler is not taken. -/
theorem handlersAreTakenOnlyWhenEnabled : Obligations.HandlersAreTakenOnlyWhenEnabled := by
  refine ⟨fun s t h => ?_, fun s t h => ?_, fun s hinit h => takeHandler_notTaken hinit h _ _,
    fun s hinit h => takeHandler_notTaken hinit h _ _⟩
  · obtain ⟨x, hs⟩ := execIrqRx_enabled h
    exact ⟨hs.inited, hs.gie, hs.rxIrqEnabled, hs.rxEnabled, by simp [hs.rxSample]⟩
  · have hs := execIrqTx_enabled h
    exact ⟨hs.inited, hs.gie, hs.txArmed, hs.txRegEmpty⟩

/-! ## What a firing leaves (R171, R172): each handler reads and writes its own half of the state alone -/

/-- The primitive calls of a firing of IRQ_RX that reads `x`. -/
def Sample.irqRxCalls (x : Sample) : List HalCall :=
  [.queryFramingError, .queryOverrun, .readRxRegister] ++ if x.ovr then [.rxDisable, .rxEnable] else []

/-- `s` after a firing of IRQ_RX that reads `x`. -/
def State.afterIrqRx (s : State) (x : Sample) : State :=
  { s with
    rx := if x.fe = true ∨ advance s.rx.n s.rx.head = s.rx.tail then s.rx else s.rx.pushed1 x.data
    hal := { s.hal with rxSample := none, rxEnabled := true, halLog := s.hal.halLog ++ x.irqRxCalls }
    rxRead := s.rxRead ++ [(x, decide (advance s.rx.n s.rx.head ≠ s.rx.tail))] }

/-- What a firing of IRQ_TX leaves of TX, of `tx_armed` and of `tx_reg_empty`, the bytes it puts on the wire and its
primitive calls. -/
structure TxFiring where
  buffer : RingBuffer
  armed : Bool
  ready : Bool
  sent : List Byte
  calls : List HalCall

/-- The firing of IRQ_TX over TX `B`: it masks, or writes the oldest byte and masks after the last one. -/
def RingBuffer.irqTxFiring (B : RingBuffer) : TxFiring :=
  if B.head = B.tail then
    { buffer := B, armed := false, ready := true, sent := [], calls := [.setTxInterruptEnabled false] }
  else
    { buffer := B.popped1
      armed := decide (advance B.n B.tail ≠ B.head)
      ready := false
      sent := [B.readSlot B.tail]
      calls := .writeTxRegister (B.readSlot B.tail) ::
        if advance B.n B.tail = B.head then [.setTxInterruptEnabled false] else [] }

/-- `s` after a firing of IRQ_TX. -/
def State.afterIrqTx (s : State) : State :=
  { s with
    tx := s.tx.irqTxFiring.buffer
    hal := { s.hal with
      txArmed := s.tx.irqTxFiring.armed
      txRegEmpty := s.tx.irqTxFiring.ready
      txLog := s.hal.txLog ++ s.tx.irqTxFiring.sent
      halLog := s.hal.halLog ++ s.tx.irqTxFiring.calls } }

/-- A firing of IRQ_TX masks the interrupt or fills the transmit register (R230). -/
theorem RingBuffer.irqTxFiring_withdraws (B : RingBuffer) : (B.irqTxFiring.armed && B.irqTxFiring.ready) = false := by
  by_cases hempty : B.head = B.tail
  · rw [irqTxFiring, if_pos hempty]
    rfl
  · rw [irqTxFiring, if_neg hempty]
    exact Bool.and_false _

section firings
variable {s t : State} {x : Sample}

theorem State.EnablesIrqRx.exec_eq (h : s.EnablesIrqRx x) : exec .irqRx s = .next (s.afterIrqRx x) := by
  rw [irqRxReadsAndPushesTheSample s x h.inited h.gie h.rxIrqEnabled h.rxEnabled h.rxSample h.inRange,
    List.append_assoc]
  rfl

theorem State.EnablesIrqTx.exec_eq (h : s.EnablesIrqTx) : exec .irqTx s = .next s.afterIrqTx := by
  obtain ⟨hmasks, hwrites⟩ := irqTxWritesOneByteOrMasks s h.inited h.gie h.txArmed h.txRegEmpty h.inRange
  by_cases hempty : s.tx.head = s.tx.tail
  · rw [hmasks hempty, State.afterIrqTx, RingBuffer.irqTxFiring, if_pos hempty, List.append_nil, ← h.txRegEmpty]
  · rw [hwrites hempty, State.afterIrqTx, RingBuffer.irqTxFiring, if_neg hempty, List.append_assoc]
    rfl

theorem execIrqRx_next (h : exec .irqRx s = .next t) : ∃ x, t = s.afterIrqRx x := by
  obtain ⟨x, hs⟩ := execIrqRx_enabled h
  rw [hs.exec_eq] at h
  cases h
  exact ⟨x, rfl⟩

theorem execIrqTx_next (h : exec .irqTx s = .next t) : t = s.afterIrqTx := by
  rw [(execIrqTx_enabled h).exec_eq] at h
  cases h
  rfl

/-- A firing of IRQ_TX withdraws no request of IRQ_RX, and leaves the waiting sample. -/
theorem State.EnablesIrqRx.afterIrqTx (h : s.EnablesIrqRx x) : s.afterIrqTx.EnablesIrqRx x :=
  ⟨h.inited, h.gie, h.rxIrqEnabled, h.rxEnabled, h.rxSample, h.inRange⟩

/-- A firing of IRQ_RX withdraws no request of IRQ_TX. -/
theorem State.EnablesIrqTx.afterIrqRx (h : s.EnablesIrqTx) (x : Sample) : (s.afterIrqRx x).EnablesIrqTx :=
  ⟨h.inited, h.gie, h.txArmed, h.txRegEmpty, h.inRange⟩

end firings

/-- Settles O33: a firing writes its own half of the state alone. -/
theorem handlersKeepTheForegroundPosition : Obligations.HandlersKeepTheForegroundPosition := by
  refine ⟨fun i s t hi h => ?_, fun s t h => ?_, fun s t h => ?_⟩
  · rcases hi with rfl | rfl
    · obtain ⟨x, rfl⟩ := execIrqRx_next h
      exact ⟨rfl, rfl, rfl, rfl, rfl, rfl, rfl, rfl, rfl, rfl, rfl, rfl, rfl, rfl, rfl⟩
    · obtain rfl := execIrqTx_next h
      exact ⟨rfl, rfl, rfl, rfl, rfl, rfl, rfl, rfl, rfl, rfl, rfl, rfl, rfl, rfl, rfl⟩
  · obtain ⟨x, rfl⟩ := execIrqRx_next h
    exact ⟨rfl, rfl, rfl, rfl⟩
  · obtain rfl := execIrqTx_next h
    exact ⟨rfl, rfl, rfl, rfl⟩

/-- Settles O34: IRQ_RX consumes the sample, and IRQ_TX masks or fills the register. -/
theorem eachFiringWithdrawsItsRequest : Obligations.EachFiringWithdrawsItsRequest := by
  refine ⟨fun s t h => ?_, fun s t h => ?_⟩
  · obtain ⟨x, rfl⟩ := execIrqRx_next h
    exact Bool.and_false _
  · obtain rfl := execIrqTx_next h
    exact s.tx.irqTxFiring_withdraws

/-! ## The two orders (R231) -/

/-- Settles O35: neither handler reads or writes the other's half, and both append to `hal_log`. -/
theorem handlerOrdersReachTheSameState : Obligations.HandlerOrdersReachTheSameState := by
  intro s hinit hgie hreqRx hreqTx hRx hTx
  obtain ⟨x, hrx⟩ := enablesIrqRx_of_request hinit hgie hreqRx hRx
  have htx := enablesIrqTx_of_request hinit hgie hreqTx hTx
  have hcalls (log rxCalls txCalls : List HalCall) :
      (log ++ rxCalls ++ txCalls).Perm (log ++ txCalls ++ rxCalls) := by
    simpa only [List.append_assoc] using List.perm_append_comm.append_left log
  refine ⟨(s.afterIrqRx x).afterIrqTx, s.afterIrqTx.afterIrqRx x, ?_, ?_, rfl, hcalls _ _ _⟩
  · rw [hrx.exec_eq]
    exact (htx.afterIrqRx x).exec_eq
  · rw [htx.exec_eq]
    exact hrx.afterIrqTx.exec_eq

end Sys2Proof.Machine
end

section
/-! The driver under interleaving (R203, R281): what a step of the step relation can be for the driver, said once; then
each of those steps keeps the driver sound.  The foreground is TX's producer and RX's consumer, IRQ_TX is TX's consumer
and IRQ_RX is RX's producer, so the moves of the two roles of a buffer serve here as for the stand-alone buffer. -/

namespace Sys2Proof.Machine

/-! ## A micro-step of the foreground -/

section sendMicro
variable {s s' : State} {B B' : RingBuffer}

/-- A push moves the head, and so the occupancy, only on its last micro-step. -/
theorem pushMicro_more_occ {q q' : PushPos} (hmicro : pushMicro q B = (B', .more q')) : B'.occ = B.occ := by
  cases q with
  | pu1 v =>
    cases hmicro
    rfl
  | pu2 v h =>
    by_cases hfull : advance B.n h = B.tail
    · rw [pushMicro_pu2_of_full v hfull] at hmicro
      cases hmicro
    · rw [pushMicro_pu2_of_room v hfull] at hmicro
      cases hmicro
      rfl
  | pu3 v h t next =>
    cases hmicro
    rfl
  | pu4 v h t next => cases hmicro

/-- A push that ends Full leaves the buffer as it is. -/
theorem pushMicro_full_eq {q : PushPos} (hmicro : pushMicro q B = (B', .done .full)) : B' = B := by
  cases q with
  | pu1 v => cases hmicro
  | pu2 v h =>
    by_cases hfull : advance B.n h = B.tail
    · rw [pushMicro_pu2_of_full v hfull] at hmicro
      cases hmicro
      rfl
    · rw [pushMicro_pu2_of_room v hfull] at hmicro
      cases hmicro
  | pu3 v h t next => cases hmicro
  | pu4 v h t next => cases hmicro

/-- A micro-step of a sound SEND_BYTE that goes on is a producer's move on TX, and changes the occupancy only on its way
to AR1. -/
theorem sendMicro_more {p p' : SendPos} (hshape : s.tx.shapeOk) (hp : s.tx.sendOk p = true)
    (hmicro : sendMicro p s = (s', .more p')) :
    ∃ B, s' = s.withTx B ∧ s.tx.ProducerMove B ∧ B.sendOk p' = true ∧ (B.occ = s.tx.occ ∨ p' = .ar1) := by
  cases p with
  | ar1 => cases hmicro
  | push q =>
    have hmove := pushMicro_producerMove hp
    cases hpush : pushMicro q s.tx with
    | mk B progress =>
      rw [hpush] at hmove
      rcases progress with q' | _ | _
      · rw [sendMicro_push_more hpush] at hmicro
        cases hmicro
        exact ⟨B, rfl, hmove, pushMicro_pushOk hshape hp hpush, .inl (pushMicro_more_occ hpush)⟩
      · rw [sendMicro_push_ok hpush] at hmicro
        cases hmicro
        exact ⟨B, rfl, hmove, rfl, .inr rfl⟩
      · rw [sendMicro_push_full hpush] at hmicro
        cases hmicro

/-- The last micro-step of a SEND_BYTE has found TX full, or arms the interrupt. -/
theorem sendMicro_done {p : SendPos} {r : PushResult} (hmicro : sendMicro p s = (s', .done r)) :
    s' = s ∨ s' = halSetTxInterruptEnabled true s := by
  cases p with
  | ar1 =>
    cases hmicro
    exact .inr rfl
  | push q =>
    cases hpush : pushMicro q s.tx with
    | mk B progress =>
      rcases progress with q' | _ | _
      · rw [sendMicro_push_more hpush] at hmicro
        cases hmicro
      · rw [sendMicro_push_ok hpush] at hmicro
        cases hmicro
      · rw [sendMicro_push_full hpush] at hmicro
        cases hmicro
        obtain rfl := pushMicro_full_eq hpush
        exact .inl rfl

end sendMicro

/-- What a micro-step of a sound foreground leaves, the collaborator apart: a producer's move on TX, which changes the
occupancy only on its way to AR1, a consumer's move on RX, and a sound position. -/
structure State.ForegroundMove (s t : State) : Prop where
  tx : s.tx.ProducerMove t.tx
  rx : s.rx.ConsumerMove t.rx
  published : t.tx.occ = s.tx.occ ∨ t.fg.atAr1 = true
  fgOk : t.fgOk = true
  inited : t.inited = s.inited
  rxRead : t.rxRead = s.rxRead
  agenda : t.agenda = s.agenda

section foreground
variable {s t : State}

theorem State.ForegroundMove.answer (h : s.ForegroundMove t) (p : Port) (rw : Word) :
    s.ForegroundMove (t.answer p rw) :=
  ⟨h.tx, h.rx, h.published, h.fgOk, h.inited, h.rxRead, h.agenda⟩

theorem State.ForegroundMove.halSetTxInterruptEnabled {p : FgPos} (h : s.ForegroundMove (s.withFg p)) (b : Bool) :
    s.ForegroundMove ((halSetTxInterruptEnabled b s).withFg p) :=
  ⟨h.tx, h.rx, h.published, h.fgOk, h.inited, h.rxRead, h.agenda⟩

/-- The foreground goes to a sound position and touches no buffer. -/
theorem State.ForegroundMove.toPosition {p : FgPos} (hp : (s.withFg p).fgOk = true) : s.ForegroundMove (s.withFg p) :=
  ⟨.stay, .stay, .inl rfl, hp, rfl, rfl, rfl⟩

/-- The foreground after the last micro-step of a SEND_BYTE. -/
theorem sendMicro_done_foregroundMove {p : SendPos} {r : PushResult} {s' : State} {q : FgPos}
    (hmicro : sendMicro p s = (s', .done r)) (hq : (s.withFg q).fgOk = true) : s.ForegroundMove (s'.withFg q) := by
  have hmove := State.ForegroundMove.toPosition hq
  rcases sendMicro_done hmicro with rfl | rfl
  · exact hmove
  · exact hmove.halSetTxInterruptEnabled true

theorem fgMicro_send_more_foregroundMove {inside : SendPos → FgPos} (hinside : IsSendContext inside) {p p' : SendPos}
    {s' : State} (hfg : s.fg = inside p) (hshape : s.tx.shapeOk) (hp : s.tx.sendOk p = true)
    (hmicro : sendMicro p s = (s', .more p')) : s.ForegroundMove (fgMicro s) := by
  obtain ⟨B, rfl, hmove, hp', hocc⟩ := sendMicro_more hshape hp hmicro
  rw [fgMicro_send_more hinside hfg hmicro]
  rcases hinside with rfl | ⟨stage, rest, rfl⟩
  · exact ⟨hmove, .stay, hocc.imp id (by rintro rfl; rfl), hp', rfl, rfl, rfl⟩
  · exact ⟨hmove, .stay, hocc.imp id (by rintro rfl; rfl), hp', rfl, rfl, rfl⟩

theorem fgMicro_foregroundMove (htx : s.tx.shapeOk) (hrx : s.rx.shapeOk) (hfg : s.fgOk = true) :
    s.ForegroundMove (fgMicro s) := by
  unfold State.fgOk at hfg
  cases hpos : s.fg with
  | idle =>
    have hstay : fgMicro s = s.withFg .idle := by simp [fgMicro, hpos, State.withFg_of_idle hpos]
    exact hstay ▸ .toPosition rfl
  | sendByte p =>
    rw [hpos] at hfg
    cases hmicro : sendMicro p s with
    | mk s' progress =>
      cases progress with
      | more p' => exact fgMicro_send_more_foregroundMove (.inl rfl) hpos htx hfg hmicro
      | done r =>
        simp only [fgMicro, hpos, hmicro]
        exact (sendMicro_done_foregroundMove (q := .idle) hmicro rfl).answer _ _
  | sl0 hf bytes =>
    simp only [fgMicro, hpos]
    cases hf with
    | true => exact .toPosition rfl
    | false => exact (State.ForegroundMove.toPosition (p := .idle) rfl).answer _ _
  | sendLine p stage rest =>
    rw [hpos] at hfg
    cases hmicro : sendMicro p s with
    | mk s' progress =>
      cases progress with
      | more p' => exact fgMicro_send_more_foregroundMove (.inr ⟨stage, rest, rfl⟩) hpos htx hfg hmicro
      | done r =>
        rw [fgMicro_sendLine_done hpos hmicro, afterInner]
        cases lineNext stage rest with
        | some x => exact sendMicro_done_foregroundMove hmicro rfl
        | none => exact (sendMicro_done_foregroundMove (q := .idle) hmicro rfl).answer _ _
  | readByte p =>
    rw [hpos] at hfg
    have hmove := popMicro_consumerMove hfg
    simp only [fgMicro, hpos]
    cases hmicro : popMicro p s.rx with
    | mk B progress =>
      rw [hmicro] at hmove
      cases progress with
      | more p' => exact ⟨.stay, hmove, .inl rfl, popMicro_popOk hrx hfg hmicro, rfl, rfl, rfl⟩
      | done r => exact ⟨.stay, hmove, .inl rfl, rfl, rfl, rfl, rfl⟩
  | rxLen p =>
    simp only [fgMicro, hpos]
    cases hmicro : lenMicro p s.rx with
    | more p' =>
      obtain ⟨hhead, -, -, -⟩ := hrx
      exact .toPosition (p := .rxLen p') (lenMicro_lenOkByConsumer hhead hmicro)
    | done k => exact (State.ForegroundMove.toPosition (p := .idle) rfl).answer _ _

end foreground

/-! ## What a step of the step relation can be for the driver -/

/-- All that the driver's soundness reads is as before; the schedule may be shorter. -/
structure State.KeepsDriver (s t : State) : Prop where
  tx : t.tx = s.tx
  rx : t.rx = s.rx
  fg : t.fg = s.fg
  hal : t.hal = s.hal
  inited : t.inited = s.inited
  rxRead : t.rxRead = s.rxRead
  scheduled : s.scheduled → t.scheduled

/-- What a turn that answers a next state can be for the driver when no HAL word comes from outside (R203): it leaves
the driver alone, it issues a foreground operation and runs some of its micro-steps, it is one micro-step of the
foreground, INIT, a firing of a handler, or a step of the environment. -/
inductive State.DriverStep (s : State) : State → Prop
  | frame {t : State} (h : s.KeepsDriver t) : DriverStep s t
  | command (p : FgPos) (k : Nat) (hinit : s.inited = true) (hidle : s.fg = .idle)
      (hp : (s.withFg p).fgOk = true) : DriverStep s (runFg k (s.withFg p))
  | micro (hbusy : s.fg ≠ .idle) : DriverStep s (fgMicro s)
  | init (hinit : s.inited = false) : DriverStep s (initBody s)
  | irqRx (x : Sample) (h : s.EnablesIrqRx x) : DriverStep s (s.afterIrqRx x)
  | irqTx (h : s.EnablesIrqTx) : DriverStep s s.afterIrqTx
  | txReady : DriverStep s s.txReady
  | rxArrive (x : Sample) (hconf : s.hal.configured = true) : DriverStep s (s.arrived x)

section classification
variable {i : Instr} {s t : State}

theorem State.KeepsDriver.refl (s : State) : s.KeepsDriver s := ⟨rfl, rfl, rfl, rfl, rfl, rfl, id⟩

theorem State.KeepsDriver.trans {u : State} (h : s.KeepsDriver t) (h' : t.KeepsDriver u) : s.KeepsDriver u :=
  ⟨h'.tx.trans h.tx, h'.rx.trans h.rx, h'.fg.trans h.fg, h'.hal.trans h.hal, h'.inited.trans h.inited,
    h'.rxRead.trans h.rxRead, h'.scheduled ∘ h.scheduled⟩

/-- The turns after the first are still turns of the step relation. -/
theorem State.keepsDriver_restAgenda (s : State) : s.KeepsDriver s.restAgenda :=
  ⟨rfl, rfl, rfl, rfl, rfl, rfl, fun h turn hturn => h turn (List.mem_of_mem_tail hturn)⟩

/-- A word comes with its line data, which the driver's soundness does not read. -/
theorem present_keepsDriver (p : Port) (line : List Byte) (s : State) : s.KeepsDriver (present p line s) :=
  ⟨rfl, rfl, rfl, rfl, rfl, rfl, id⟩

theorem prodMicro_keepsDriver (s : State) : s.KeepsDriver (prodMicro s) := by
  unfold prodMicro
  cases s.prod with
  | idle => exact ⟨rfl, rfl, rfl, rfl, rfl, rfl, id⟩
  | push p =>
    dsimp only
    rcases pushMicro p s.rb with ⟨B, p' | r⟩ <;> exact ⟨rfl, rfl, rfl, rfl, rfl, rfl, id⟩
  | len p =>
    dsimp only
    cases lenMicro p s.rb <;> exact ⟨rfl, rfl, rfl, rfl, rfl, rfl, id⟩

theorem consMicro_keepsDriver (s : State) : s.KeepsDriver (consMicro s) := by
  unfold consMicro
  cases s.cons with
  | idle => exact ⟨rfl, rfl, rfl, rfl, rfl, rfl, id⟩
  | pop p =>
    dsimp only
    rcases popMicro p s.rb with ⟨B, p' | r⟩ <;> exact ⟨rfl, rfl, rfl, rfl, rfl, rfl, id⟩
  | len p =>
    dsimp only
    cases lenMicro p s.rb <;> exact ⟨rfl, rfl, rfl, rfl, rfl, rfl, id⟩

/-- Issuing a foreground operation is a command of no micro-step. -/
theorem issueFg_driverStep {p : FgPos} (hp : (s.withFg p).fgOk = true) (h : issueFg p s = .next t) :
    s.DriverStep t := by
  obtain ⟨hinit, hidle, -, rfl⟩ := issueFg_next h
  exact .command p 0 hinit hidle hp

theorem andThen_runFg_driverStep {p : FgPos} {k : Nat} (hp : (s.withFg p).fgOk = true)
    (h : andThen (issueFg p s) (runFg k) = .next t) : s.DriverStep t := by
  obtain ⟨u, hissue, rfl⟩ := andThen_next h
  obtain ⟨hinit, hidle, -, rfl⟩ := issueFg_next hissue
  exact .command p k hinit hidle hp

theorem execInit_inited (h : exec .init s = .next t) : s.inited = false := by
  change execInit s = .next t at h
  unfold execInit at h
  split_ifs at h with hinit
  simpa using hinit

theorem execEnvRxArrive_enabled {f o : Bool} {d : Byte} (h : exec (.envRxArrive f o d) s = .next t) :
    s.hal.configured = true := by
  change execEnvRxArrive f o d s = .next t at h
  unfold execEnvRxArrive at h
  split_ifs at h with henabled
  exact (Bool.and_eq_true_iff.mp henabled).1

theorem exec_driverStep (hi : i.format ≠ .hal) (h : exec i s = .next t) : s.DriverStep t := by
  cases i with
  | rbPush v =>
    obtain rfl := execRbPush_next h
    exact .frame ⟨rfl, rfl, rfl, rfl, rfl, rfl, id⟩
  | rbPop =>
    obtain rfl := execRbPop_next h
    exact .frame ⟨rfl, rfl, rfl, rfl, rfl, rfl, id⟩
  | rbLen => rcases execRbLen_next h with rfl | rfl <;> exact .frame ⟨rfl, rfl, rfl, rfl, rfl, rfl, id⟩
  | init =>
    have hinit := execInit_inited h
    obtain rfl := execInit_next h
    exact .init hinit
  | sendByte | sendLine | readByte | rxLen => exact andThen_runFg_driverStep rfl h
  | irqRx =>
    obtain ⟨x, hx⟩ := execIrqRx_enabled h
    rw [hx.exec_eq] at h
    cases h
    exact .irqRx x hx
  | irqTx =>
    have henabled := execIrqTx_enabled h
    obtain rfl := execIrqTx_next h
    exact .irqTx henabled
  | writeTxRegister | readRxRegister | setTxInterruptEnabled | queryFramingError | queryOverrun | rxDisable
  | rxEnable | configureLine => exact absurd rfl hi
  | envTxReady =>
    obtain rfl := execEnvTxReady_next h
    exact .txReady
  | envRxArrive f o d =>
    have hconf := execEnvRxArrive_enabled h
    obtain rfl := execEnvRxArrive_next h
    exact .rxArrive ⟨d, f, o⟩ hconf
  | hostGie b =>
    cases h
    exact .frame ⟨rfl, rfl, rfl, rfl, rfl, rfl, id⟩

theorem issue_driverStep (hi : i.format ≠ .hal) (h : issue i s = .next t) : s.DriverStep t := by
  cases i with
  | rbPush v =>
    obtain ⟨-, -, rfl⟩ := issueProd_next h
    exact .frame ⟨rfl, rfl, rfl, rfl, rfl, rfl, id⟩
  | rbPop =>
    obtain ⟨-, -, rfl⟩ := issueCons_next h
    exact .frame ⟨rfl, rfl, rfl, rfl, rfl, rfl, id⟩
  | rbLen =>
    cases hport : s.rbPort with
    | prod =>
      obtain ⟨-, -, rfl⟩ := issueProd_next ((rbLen_of_prod hport).2.symm.trans h)
      exact .frame ⟨rfl, rfl, rfl, rfl, rfl, rfl, id⟩
    | cons =>
      obtain ⟨-, -, rfl⟩ := issueCons_next ((rbLen_of_cons hport).2.symm.trans h)
      exact .frame ⟨rfl, rfl, rfl, rfl, rfl, rfl, id⟩
  | sendByte | sendLine | readByte | rxLen => exact issueFg_driverStep rfl h
  | init | irqRx | irqTx | writeTxRegister | readRxRegister | setTxInterruptEnabled | queryFramingError
  | queryOverrun | rxDisable | rxEnable | configureLine | envTxReady | envRxArrive | hostGie =>
    exact exec_driverStep hi h

theorem perform_driverStep {m : WordMode} (hi : i.format ≠ .hal) (h : perform m i s = .next t) : s.DriverStep t := by
  cases m with
  | whole => exact exec_driverStep hi h
  | issue => exact issue_driverStep hi h

theorem microTurn_driverStep {c : Context} (h : microTurn c s = .next t) : s.DriverStep t := by
  cases c with
  | fg =>
    obtain ⟨hbusy, -, rfl⟩ := fgTurn_next h
    exact .micro hbusy
  | prod =>
    obtain ⟨-, -, rfl⟩ := prodTurn_next h
    exact .frame (prodMicro_keepsDriver s)
  | cons =>
    obtain ⟨-, -, rfl⟩ := consTurn_next h
    exact .frame (consMicro_keepsDriver s)

/-- A word at a port but the collaborator's. -/
theorem deliver_driverStep {p : Port} {m : WordMode} {cw : Word} {line : List Byte} (hp : p ≠ .hal)
    (h : deliver p m cw line s = .next t) : ∃ u, s.KeepsDriver u ∧ u.DriverStep t := by
  rcases deliver_next h with rfl | ⟨i, -, haccepts, hperform⟩
  · exact ⟨s, .refl s, .frame ⟨rfl, rfl, rfl, rfl, rfl, rfl, id⟩⟩
  · exact ⟨_, present_keepsDriver p line s, perform_driverStep (format_ne_hal_of_accepts hp haccepts) hperform⟩

/-- A step whose first turn is no HAL word from outside. -/
theorem step_driverStep (hscheduled : s.scheduled) (h : step s = .next t) :
    ∃ u, s.KeepsDriver u ∧ u.DriverStep t := by
  have hrest := s.keepsDriver_restAgenda
  rcases step_next h with rfl | ⟨c, hturn⟩ | ⟨p, m, cw, line, rest, hagenda, hword⟩
  · exact ⟨s, .refl s, .frame hrest⟩
  · exact ⟨_, hrest, microTurn_driverStep hturn⟩
  · have hturn := hscheduled (.word p m cw line) (hagenda ▸ List.mem_cons_self)
    obtain ⟨u, hkeeps, hstep⟩ := deliver_driverStep (of_decide_eq_true hturn) hword
    exact ⟨u, hrest.trans hkeeps, hstep⟩

end classification

/-! ## The foreground keeps the driver sound -/

section soundness
variable {s t : State}

theorem State.driverSound.running (hs : s.driverSound) (hinit : s.inited = true) : s.runningOk := by
  obtain ⟨-, -, -, -, hrunning⟩ := hs
  exact hrunning hinit

theorem State.driverSound.fresh (hs : s.driverSound) (hinit : s.inited = false) : s.freshOk := by
  obtain ⟨-, -, -, hfresh, -⟩ := hs
  exact hfresh hinit

/-- A sound driver after INIT, from its parts. -/
theorem State.driverSound.ofRunning (hscheduled : s.scheduled) (htx : s.tx.shapeOk) (hrx : s.rx.shapeOk)
    (hinit : s.inited = true) (hrunning : s.runningOk) : s.driverSound :=
  ⟨hscheduled, htx, hrx, fun hfresh => (Bool.false_ne_true (hfresh.symm.trans hinit)).elim, fun _ => hrunning⟩

/-- Before INIT the foreground is idle and the line is not configured. -/
theorem State.driverSound.inited_of_busy (hs : s.driverSound) (hbusy : s.fg ≠ .idle) : s.inited = true := by
  by_contra hinit
  obtain ⟨-, -, hidle, -⟩ := hs.fresh (Bool.eq_false_iff.mpr hinit)
  exact hbusy hidle

theorem State.driverSound.inited_of_configured (hs : s.driverSound) (hconf : s.hal.configured = true) :
    s.inited = true := by
  by_contra hinit
  obtain ⟨hunconf, -⟩ := hs.fresh (Bool.eq_false_iff.mpr hinit)
  exact Bool.false_ne_true (hunconf.symm.trans hconf)

theorem State.KeepsDriver.driverSound (h : s.KeepsDriver t) (hs : s.driverSound) : t.driverSound := by
  obtain ⟨htx, hrx, hfg, hhal, hinit, hread, hkept⟩ := h
  obtain ⟨hscheduled, hdriver⟩ := hs
  refine ⟨hkept hscheduled, ?_⟩
  unfold State.freshOk State.runningOk State.rxPushedOk State.rxArrivedOk State.armingOk State.fgOk at hdriver ⊢
  rw [htx, hrx, hfg, hhal, hinit, hread]
  exact hdriver

theorem RingBuffer.ProducerMove.popped_eq {B B' : RingBuffer} (hmove : B.ProducerMove B') : B'.popped = B.popped := by
  cases hmove <;> rfl

theorem RingBuffer.ConsumerMove.pushed_eq {B B' : RingBuffer} (hmove : B.ConsumerMove B') : B'.pushed = B.pushed := by
  cases hmove <;> rfl

/-- I6 under the foreground: what it publishes it publishes on its way to AR1, and AR1 arms (R142, R148). -/
theorem State.ForegroundMove.armingOk (hmove : s.ForegroundMove t)
    (hhal : t.hal = if s.fg.atAr1 then s.hal.setTxInterruptEnabled true else s.hal) (h : s.armingOk) :
    t.armingOk := by
  rcases h with hempty | harmed | har1
  · rcases hmove.published with hocc | har1
    · exact .inl (hocc.trans hempty)
    · exact .inr (.inr har1)
  · refine .inr (.inl ?_)
    rw [hhal]
    split_ifs
    · rfl
    · exact harmed
  · exact .inr (.inl (by rw [hhal, if_pos har1]; rfl))

theorem State.driverSound.foregroundMove (hs : s.driverSound) (hinit : s.inited = true) (hmove : s.ForegroundMove t)
    (hhal : t.hal = if s.fg.atAr1 then s.hal.setTxInterruptEnabled true else s.hal) : t.driverSound := by
  obtain ⟨hfifoTx, hfifoRx, hlog, hpushed, harrived, harming, hconf, henabled, hirq, -⟩ := hs.running hinit
  obtain ⟨hscheduled, htx, hrx, -, -⟩ := hs
  have hkept {α : Type} (field : Collaborator → α)
      (hfield : field (s.hal.setTxInterruptEnabled true) = field s.hal) : field t.hal = field s.hal := by
    rw [hhal]
    split_ifs
    · exact hfield
    · rfl
  refine .ofRunning ?_ (hmove.tx.shapeOk htx) (hmove.rx.shapeOk hrx) (hmove.inited.trans hinit)
    ⟨hmove.tx.fifo htx hfifoTx, hmove.rx.fifo hrx hfifoRx, ?_, ?_, ?_, hmove.armingOk hhal harming,
      (hkept Collaborator.configured rfl).trans hconf, (hkept Collaborator.rxEnabled rfl).trans henabled,
      (hkept Collaborator.rxIrqEnabled rfl).trans hirq, hmove.fgOk⟩
  · rw [State.scheduled, hmove.agenda]
    exact hscheduled
  · rw [hkept Collaborator.txLog rfl, hmove.tx.popped_eq, hlog]
  · rw [State.rxPushedOk, hmove.rx.pushed_eq, hmove.rxRead]
    exact hpushed
  · rw [State.rxArrivedOk, hmove.rxRead, hkept Collaborator.rxSample rfl, hkept Collaborator.rxArrived rfl]
    exact harrived

theorem fgMicro_driverSound (hs : s.driverSound) (hbusy : s.fg ≠ .idle) : (fgMicro s).driverSound := by
  have hfg := hs.fgOk
  have ⟨_, htx, hrx, _, _⟩ := hs
  exact hs.foregroundMove (hs.inited_of_busy hbusy) (fgMicro_foregroundMove htx hrx hfg) (fgMicro_hal s)

/-- Issuing an operation to an idle foreground. -/
theorem State.driverSound.withFg (hs : s.driverSound) (hinit : s.inited = true) (hidle : s.fg = .idle) {p : FgPos}
    (hp : (s.withFg p).fgOk = true) : (s.withFg p).driverSound := by
  refine hs.foregroundMove hinit (.toPosition hp) ?_
  rw [hidle]
  rfl

theorem runFg_driverSound (k : Nat) (hs : s.driverSound) : (runFg k s).driverSound :=
  runFg_keeps (P := State.driverSound) (fun _ hu hbusy => fgMicro_driverSound hu hbusy) k s hs

/-! ## INIT, the handlers and the environment keep the driver sound -/

theorem RingBuffer.emptied_shapeOk {B : RingBuffer} (h : B.shapeOk) : B.emptied.shapeOk := by
  obtain ⟨-, -, hwf, hbound⟩ := h
  exact ⟨Nat.succ_pos _, Nat.succ_pos _, hwf, hbound⟩

/-- I3 of a buffer INIT has emptied, through which nothing has gone yet. -/
theorem RingBuffer.emptied_fifo {B : RingBuffer} (hpushed : B.pushed = []) (hpopped : B.popped = []) :
    B.emptied.fifo := by
  rw [RingBuffer.fifo, RingBuffer.contents_emptied B.emptied rfl (Nat.succ_pos _), RingBuffer.emptied_pushed,
    RingBuffer.emptied_popped, hpushed, hpopped]
  rfl

theorem initBody_driverSound (hs : s.driverSound) (hinit : s.inited = false) : (initBody s).driverSound := by
  obtain ⟨-, -, hidle, hlog, hread, htxPushed, htxPopped, hrxPushed, hrxPopped⟩ := hs.fresh hinit
  obtain ⟨hscheduled, htx, hrx, -, -⟩ := hs
  have hempty : s.tx.emptied.occ = 0 := (RingBuffer.empty_iff_occ (Nat.succ_pos _) (Nat.succ_pos _)).mp rfl
  refine .ofRunning hscheduled (RingBuffer.emptied_shapeOk htx) (RingBuffer.emptied_shapeOk hrx) rfl
    ⟨RingBuffer.emptied_fifo htxPushed htxPopped, RingBuffer.emptied_fifo hrxPushed hrxPopped,
      hlog.trans htxPopped.symm, ?_, ?_, .inl hempty, rfl, rfl, rfl, ?_⟩
  · change s.rx.pushed = (s.rxRead.filter _).map _
    rw [hrxPushed, hread]
    rfl
  · change (s.rxRead.map Prod.fst ++ []).Sublist s.hal.rxArrived
    rw [hread]
    exact List.nil_sublist _
  · change ((s.withTx s.tx.emptied).withRx s.rx.emptied).fgOk = true
    simp [State.fgOk, hidle]

/-- A consumer's move on TX keeps the foreground's position sound. -/
theorem State.fgOk_withTx {B : RingBuffer} (htx : s.tx.shapeOk) (hmove : s.tx.ConsumerMove B) (h : s.fgOk = true) :
    (s.withTx B).fgOk = true := by
  have hsend {p : SendPos} (hp : s.tx.sendOk p = true) : B.sendOk p = true := by
    cases p with
    | push q => exact hmove.pushOk htx hp
    | ar1 => rfl
  unfold State.fgOk at h ⊢
  simp only [State.withTx_fg, State.withTx_tx, State.withTx_rx]
  cases hpos : s.fg with
  | sendByte p =>
    rw [hpos] at h
    exact hsend h
  | sendLine p stage rest =>
    rw [hpos] at h
    exact hsend h
  | idle | sl0 => rfl
  | readByte | rxLen =>
    rw [hpos] at h
    exact h

/-- A producer's move on RX keeps the foreground's position sound. -/
theorem State.fgOk_withRx {B : RingBuffer} (hrx : s.rx.shapeOk) (hmove : s.rx.ProducerMove B) (h : s.fgOk = true) :
    (s.withRx B).fgOk = true := by
  unfold State.fgOk at h ⊢
  simp only [State.withRx_fg, State.withRx_tx, State.withRx_rx]
  cases hpos : s.fg with
  | readByte p =>
    rw [hpos] at h
    exact hmove.popOk hrx h
  | rxLen p =>
    rw [hpos] at h
    exact hmove.lenOkByConsumer hrx h
  | idle | sl0 => rfl
  | sendByte | sendLine =>
    rw [hpos] at h
    exact h

/-- A whole push is a store into the free slot and its publishing. -/
theorem RingBuffer.pushed1_eq_published (B : RingBuffer) (v : Byte) :
    B.pushed1 v = (B.writeSlot B.head v).published := by
  unfold RingBuffer.published
  rw [RingBuffer.writeSlot_head, B.readSlot_writeSlot_same]
  rfl

/-- RX and the foreground's position are sound: the shape, I3, and the condition on the operation in progress. -/
structure State.ReceiveSound (s : State) : Prop where
  shape : s.rx.shapeOk
  fifo : s.rx.fifo
  fgOk : s.fgOk = true

theorem State.ReceiveSound.producerMove {B : RingBuffer} (h : s.ReceiveSound) (hmove : s.rx.ProducerMove B) :
    (s.withRx B).ReceiveSound :=
  ⟨hmove.shapeOk h.shape, hmove.fifo h.shape h.fifo, State.fgOk_withRx h.shape hmove h.fgOk⟩

theorem State.ReceiveSound.pushed1 (h : s.ReceiveSound) (v : Byte) (hroom : advance s.rx.n s.rx.head ≠ s.rx.tail) :
    (s.withRx (s.rx.pushed1 v)).ReceiveSound := by
  have hstored : (s.withRx (s.rx.writeSlot s.rx.head v)).ReceiveSound := h.producerMove (.store v)
  rw [s.rx.pushed1_eq_published v]
  exact hstored.producerMove (.publish hroom)

theorem State.ReceiveSound.afterIrqRx (h : s.ReceiveSound) (x : Sample) : (s.afterIrqRx x).ReceiveSound := by
  have hbuffer : (s.withRx (if x.fe = true ∨ advance s.rx.n s.rx.head = s.rx.tail then s.rx
      else s.rx.pushed1 x.data)).ReceiveSound := by
    split_ifs with hdropped
    · exact h
    · exact h.pushed1 x.data fun hfull => hdropped (.inr hfull)
  exact ⟨hbuffer.shape, hbuffer.fifo, hbuffer.fgOk⟩

/-- I5 under IRQ_RX: the sample read is pushed when it has no framing error and meets room (R171). -/
theorem State.rxPushedOk.afterIrqRx (h : s.rxPushedOk) (x : Sample) : (s.afterIrqRx x).rxPushedOk := by
  have hpushed : (s.afterIrqRx x).rx.pushed =
      s.rx.pushed ++ if x.fe = true ∨ advance s.rx.n s.rx.head = s.rx.tail then [] else [x.data] := by
    change (if x.fe = true ∨ advance s.rx.n s.rx.head = s.rx.tail then s.rx else s.rx.pushed1 x.data).pushed = _
    split_ifs
    · exact (List.append_nil _).symm
    · rfl
  rw [State.rxPushedOk, hpushed, State.afterIrqRx, List.filter_append, List.map_append, ← show s.rx.pushed = _ from h]
  congr 1
  by_cases hfe : x.fe = true <;> by_cases hfull : advance s.rx.n s.rx.head = s.rx.tail <;> simp [hfe, hfull]

theorem State.driverSound.afterIrqRx (hs : s.driverSound) {x : Sample} (hx : s.EnablesIrqRx x) :
    (s.afterIrqRx x).driverSound := by
  obtain ⟨hfifoTx, hfifoRx, hlog, hpushed, harrived, harming, hconf, -, hirq, hfg⟩ := hs.running hx.inited
  obtain ⟨hscheduled, htx, hrx, -, -⟩ := hs
  have hreceive : (s.afterIrqRx x).ReceiveSound := State.ReceiveSound.afterIrqRx ⟨hrx, hfifoRx, hfg⟩ x
  have harrived' : (s.afterIrqRx x).rxArrivedOk := by
    rw [State.rxArrivedOk, hx.rxSample] at harrived
    change ((s.rxRead ++ [_]).map Prod.fst ++ []).Sublist s.hal.rxArrived
    rw [List.append_nil, List.map_append]
    exact harrived
  exact .ofRunning hscheduled htx hreceive.shape hx.inited
    ⟨hfifoTx, hreceive.fifo, hlog, hpushed.afterIrqRx x, harrived', harming, hconf, rfl, hirq, hreceive.fgOk⟩

theorem RingBuffer.irqTxFiring_of_empty {B : RingBuffer} (hempty : B.head = B.tail) :
    B.irqTxFiring = ⟨B, false, true, [], [.setTxInterruptEnabled false]⟩ := if_pos hempty

theorem RingBuffer.irqTxFiring_buffer_of_byte {B : RingBuffer} (hbyte : B.head ≠ B.tail) :
    B.irqTxFiring.buffer = B.popped1 := by rw [RingBuffer.irqTxFiring, if_neg hbyte]

theorem RingBuffer.irqTxFiring_sent_of_byte {B : RingBuffer} (hbyte : B.head ≠ B.tail) :
    B.irqTxFiring.sent = [B.readSlot B.tail] := by rw [RingBuffer.irqTxFiring, if_neg hbyte]

theorem RingBuffer.irqTxFiring_armed_of_byte {B : RingBuffer} (hbyte : B.head ≠ B.tail) :
    B.irqTxFiring.armed = decide (advance B.n B.tail ≠ B.head) := by rw [RingBuffer.irqTxFiring, if_neg hbyte]

/-- IRQ_TX makes a consumer's move on TX. -/
theorem RingBuffer.irqTxFiring_consumerMove (B : RingBuffer) : B.ConsumerMove B.irqTxFiring.buffer := by
  by_cases hempty : B.head = B.tail
  · rw [RingBuffer.irqTxFiring_of_empty hempty]
    exact .stay
  · rw [RingBuffer.irqTxFiring_buffer_of_byte hempty]
    exact .release hempty

/-- I4 under IRQ_TX: the byte popped is the byte written (R172). -/
theorem RingBuffer.irqTxFiring_popped (B : RingBuffer) :
    B.irqTxFiring.buffer.popped = B.popped ++ B.irqTxFiring.sent := by
  by_cases hempty : B.head = B.tail
  · rw [RingBuffer.irqTxFiring_of_empty hempty]
    exact (List.append_nil _).symm
  · rw [RingBuffer.irqTxFiring_buffer_of_byte hempty, RingBuffer.irqTxFiring_sent_of_byte hempty]
    rfl

/-- IRQ_TX masks the interrupt only when it leaves TX empty (R172). -/
theorem RingBuffer.irqTxFiring_empty_or_armed {B : RingBuffer} (hB : B.inRange = true) :
    B.irqTxFiring.buffer.occ = 0 ∨ B.irqTxFiring.armed = true := by
  by_cases hempty : B.head = B.tail
  · rw [RingBuffer.irqTxFiring_of_empty hempty]
    exact .inl ((RingBuffer.empty_iff_occ_of_inRange hB).mp hempty)
  · rw [RingBuffer.irqTxFiring_buffer_of_byte hempty, RingBuffer.irqTxFiring_armed_of_byte hempty]
    by_cases hlast : advance B.n B.tail = B.head
    · exact .inl ((RingBuffer.empty_iff_occ_of_inRange (RingBuffer.popped1_inRange hB)).mp hlast.symm)
    · exact .inr (decide_eq_true hlast)

theorem State.driverSound.afterIrqTx (hs : s.driverSound) (henabled : s.EnablesIrqTx) : s.afterIrqTx.driverSound := by
  obtain ⟨hfifoTx, hfifoRx, hlog, hpushed, harrived, -, hconf, hrxOn, hirq, hfg⟩ := hs.running henabled.inited
  obtain ⟨hscheduled, htx, hrx, -, -⟩ := hs
  have hmove := s.tx.irqTxFiring_consumerMove
  have hlog' : s.hal.txLog ++ s.tx.irqTxFiring.sent = s.tx.irqTxFiring.buffer.popped := by
    rw [s.tx.irqTxFiring_popped, hlog]
  have harming : s.afterIrqTx.armingOk :=
    (RingBuffer.irqTxFiring_empty_or_armed henabled.inRange).imp id fun harmed => .inl harmed
  exact .ofRunning hscheduled (hmove.shapeOk htx) hrx henabled.inited
    ⟨hmove.fifo htx hfifoTx, hfifoRx, hlog', hpushed, harrived, harming, hconf, hrxOn, hirq,
      State.fgOk_withTx htx hmove hfg⟩

/-- I5 under ENV_RX_ARRIVE: the sample that arrives may replace the one that waited, never one that was read (R200). -/
theorem State.driverSound.arrived (hs : s.driverSound) (x : Sample) (hconf : s.hal.configured = true) :
    (s.arrived x).driverSound := by
  have hinit := hs.inited_of_configured hconf
  obtain ⟨hfifoTx, hfifoRx, hlog, hpushed, harrived, harming, -, hrxOn, hirq, hfg⟩ := hs.running hinit
  obtain ⟨hscheduled, htx, hrx, -, -⟩ := hs
  have harrived' : (s.arrived x).rxArrivedOk := ((List.sublist_append_left _ _).trans harrived).append_right [x]
  exact .ofRunning hscheduled htx hrx hinit
    ⟨hfifoTx, hfifoRx, hlog, hpushed, harrived', harming, hconf, hrxOn, hirq, hfg⟩

/-! ## Every step keeps the driver sound -/

theorem State.DriverStep.driverSound (h : s.DriverStep t) (hs : s.driverSound) : t.driverSound := by
  cases h with
  | frame h => exact h.driverSound hs
  | command p k hinit hidle hp => exact runFg_driverSound k (hs.withFg hinit hidle hp)
  | micro hbusy => exact fgMicro_driverSound hs hbusy
  | init hinit => exact initBody_driverSound hs hinit
  | irqRx x hx => exact hs.afterIrqRx hx
  | irqTx henabled => exact hs.afterIrqTx henabled
  | txReady => exact hs
  | rxArrive x hconf => exact hs.arrived x hconf

end soundness

/-- Settles O58: by the cases of what a step can be for the driver. -/
theorem driverStaysSound : Obligations.DriverStaysSound := by
  intro s t hs h
  have ⟨hscheduled, _⟩ := hs
  obtain ⟨u, hkeeps, hstep⟩ := step_driverStep hscheduled h
  exact hstep.driverSound (hkeeps.driverSound hs)

end Sys2Proof.Machine
end

section
/-! Before INIT and against a second one (R263, R264), and the micro-steps of the foreground (R281 I8). -/

namespace Sys2Proof.Machine

section refusals
variable {s : State}

theorem exec_init_of_inited (hinit : s.inited = true) : exec .init s = .refused .secondInit := by
  simp [exec, execInit, hinit]

theorem exec_init_of_gie (hinit : s.inited = false) (hgie : s.gie = true) :
    exec .init s = .refused .initWithInterruptsOn := by
  simp [exec, execInit, hinit, hgie]

theorem issueFg_beforeInit (hinit : s.inited = false) (p : FgPos) : issueFg p s = .refused .beforeInit := if_pos hinit

theorem takeHandler_beforeInit (hinit : s.inited = false) (request inRange : Bool) (body : State → State) :
    takeHandler request inRange body s = .refused .beforeInit := if_pos hinit

end refusals

/-- Settles O10: INIT tests `inited` first and then `gie`. -/
theorem initTwiceOrWithInterruptsOnIsRefused : Obligations.InitTwiceOrWithInterruptsOnIsRefused :=
  ⟨fun _ => exec_init_of_inited, fun _ => exec_init_of_gie⟩

/-- Settles O11: each of these operations is refused when it is issued. -/
theorem driverOperationsAreRefusedBeforeInit : Obligations.DriverOperationsAreRefusedBeforeInit := by
  intro s m hinit
  have hfg := issueFg_beforeInit hinit
  have hirq := takeHandler_beforeInit hinit
  exact ⟨fun v => perform_of_issue_refused (i := .sendByte v) (hfg _) m,
    fun h => perform_of_issue_refused (i := .sendLine h) (hfg _) m,
    perform_of_issue_refused (i := .readByte) (hfg _) m, perform_of_issue_refused (i := .rxLen) (hfg _) m,
    perform_of_issue_refused (i := .irqRx) (hirq ..) m, perform_of_issue_refused (i := .irqTx) (hirq ..) m⟩

/-- In a sound state the foreground's micro-step works with indices in range. -/
theorem fgTurn_of_driverSound {s : State} (hs : s.driverSound) (hbusy : s.fg ≠ .idle) :
    fgTurn s = .next (fgMicro s) := by
  have hfg := hs.fgOk
  obtain ⟨-, htx, hrx, -, -⟩ := hs
  exact fgTurn_of_inRange hbusy (fgInRange_of_fgOk htx.inRange hrx.inRange hfg)

/-- Settles O29: only an idle foreground or an index out of range keeps a micro-step from a next state. -/
theorem foregroundMicroStepIsAlwaysEnabled : Obligations.ForegroundMicroStepIsAlwaysEnabled :=
  fun s hs hbusy => ⟨fgMicro s, fgTurn_of_driverSound hs hbusy⟩

end Sys2Proof.Machine
end

section
/-! The transmit register (R281 I7, R191): of all steps only IRQ_TX, and a WRITE_TX_REGISTER word from outside (log 8),
put a byte on the wire, and both find the register ready and leave it busy. -/

namespace Sys2Proof.Machine

/-- `tx_log` is as before, or the register was ready and has taken one byte. -/
def State.TransmitsWhenReady (s t : State) : Prop :=
  t.hal.txLog = s.hal.txLog ∨
    s.hal.txRegEmpty = true ∧ t.hal.txRegEmpty = false ∧ ∃ b, t.hal.txLog = s.hal.txLog ++ [b]

section transmit
variable {i : Instr} {s t : State}

/-- A micro-step of the foreground leaves the transmit register alone: of the collaborator it can only arm the
interrupt. -/
theorem fgMicro_txRegister (s : State) :
    (fgMicro s).hal.txLog = s.hal.txLog ∧ (fgMicro s).hal.txRegEmpty = s.hal.txRegEmpty := by
  rw [fgMicro_hal]
  split_ifs
  · exact ⟨rfl, rfl⟩
  · exact ⟨rfl, rfl⟩

theorem runFg_txRegister (k : Nat) (s : State) :
    (runFg k s).hal.txLog = s.hal.txLog ∧ (runFg k s).hal.txRegEmpty = s.hal.txRegEmpty := by
  refine runFg_keeps (P := fun u => u.hal.txLog = s.hal.txLog ∧ u.hal.txRegEmpty = s.hal.txRegEmpty)
    (fun u hu _ => ?_) k s ⟨rfl, rfl⟩
  obtain ⟨hlog, hready⟩ := hu
  obtain ⟨hlog', hready'⟩ := fgMicro_txRegister u
  exact ⟨hlog'.trans hlog, hready'.trans hready⟩

theorem State.EnablesIrqTx.transmitsWhenReady (h : s.EnablesIrqTx) : s.TransmitsWhenReady s.afterIrqTx := by
  by_cases hempty : s.tx.head = s.tx.tail
  · refine .inl ?_
    rw [State.afterIrqTx, RingBuffer.irqTxFiring_of_empty hempty]
    exact List.append_nil _
  · refine .inr ⟨h.txRegEmpty, ?_, s.tx.readSlot s.tx.tail, ?_⟩
    · rw [State.afterIrqTx, RingBuffer.irqTxFiring, if_neg hempty]
    · rw [State.afterIrqTx, RingBuffer.irqTxFiring_sent_of_byte hempty]

theorem State.DriverStep.transmitsWhenReady (h : s.DriverStep t) : s.TransmitsWhenReady t := by
  cases h with
  | frame h => exact .inl (congrArg Collaborator.txLog h.hal)
  | command p k hinit hidle hp => exact .inl (runFg_txRegister k (s.withFg p)).1
  | micro hbusy => exact .inl (fgMicro_txRegister s).1
  | init hinit => exact .inl rfl
  | irqRx x hx => exact .inl rfl
  | irqTx henabled => exact henabled.transmitsWhenReady
  | txReady => exact .inl rfl
  | rxArrive x hconf => exact .inl rfl

/-- The collaborator's reads, with or without a sample waiting, transmit nothing. -/
theorem halReads_txLog (s : State) :
    (halReadRxRegister s).2.hal.txLog = s.hal.txLog ∧ (halQueryFramingError s).2.hal.txLog = s.hal.txLog ∧
    (halQueryOverrun s).2.hal.txLog = s.hal.txLog := by
  unfold halReadRxRegister halQueryFramingError halQueryOverrun
  cases s.hal.rxSample <;> exact ⟨rfl, rfl, rfl⟩

/-- A write of the transmit register from outside needs it ready (U14). -/
theorem execWriteTxRegister_ready {v : Byte} (h : exec (.writeTxRegister v) s = .next t) :
    s.hal.txRegEmpty = true := by
  by_contra hbusy
  cases h.symm.trans (exec_writeTxRegister_of_busy v (Bool.eq_false_iff.mpr hbusy))

theorem exec_hal_transmitsWhenReady (hi : i.format = .hal) (h : exec i s = .next t) : s.TransmitsWhenReady t := by
  cases i with
  | writeTxRegister v =>
    have hready := execWriteTxRegister_ready h
    obtain rfl := execWriteTxRegister_next h
    exact .inr ⟨hready, rfl, v, rfl⟩
  | readRxRegister =>
    cases h
    exact .inl (halReads_txLog s).1
  | queryFramingError =>
    cases h
    exact .inl (halReads_txLog s).2.1
  | queryOverrun =>
    cases h
    exact .inl (halReads_txLog s).2.2
  | setTxInterruptEnabled | rxDisable | rxEnable | configureLine =>
    cases h
    exact .inl rfl
  | rbPush | rbPop | rbLen | init | sendByte | sendLine | readByte | rxLen | irqRx | irqTx | envTxReady
  | envRxArrive | hostGie => cases hi

/-- A HAL word is one atomic step in either mode (R87). -/
theorem perform_of_hal (hi : i.format = .hal) (m : WordMode) (s : State) : perform m i s = exec i s := by
  cases m with
  | whole => rfl
  | issue =>
    cases i with
    | writeTxRegister | readRxRegister | setTxInterruptEnabled | queryFramingError | queryOverrun | rxDisable
    | rxEnable | configureLine => rfl
    | rbPush | rbPop | rbLen | init | sendByte | sendLine | readByte | rxLen | irqRx | irqTx | envTxReady
    | envRxArrive | hostGie => cases hi

theorem perform_transmitsWhenReady {m : WordMode} (h : perform m i s = .next t) : s.TransmitsWhenReady t := by
  by_cases hi : i.format = .hal
  · rw [perform_of_hal hi] at h
    exact exec_hal_transmitsWhenReady hi h
  · exact (perform_driverStep hi h).transmitsWhenReady

theorem step_transmitsWhenReady (h : step s = .next t) : s.TransmitsWhenReady t := by
  rcases step_next h with rfl | ⟨c, hturn⟩ | ⟨p, m, cw, line, rest, -, hword⟩
  · exact .inl rfl
  · exact (microTurn_driverStep hturn).transmitsWhenReady
  · rcases deliver_next hword with rfl | ⟨i, -, -, hperform⟩
    · exact .inl rfl
    · exact perform_transmitsWhenReady (s := present p line s.restAgenda) hperform

end transmit

/-- Settles O37: a step that changes `tx_log` has written the ready register once. -/
theorem transmitRegisterIsWrittenOnlyWhenReady : Obligations.TransmitRegisterIsWrittenOnlyWhenReady :=
  fun _ _ h hne => (step_transmitsWhenReady h).resolve_left hne

end Sys2Proof.Machine
end

section
/-! Every pushed byte is sent (R281 I9, R8, R199, R229): what a step keeps of the bytes on their way, what the fair
turns do, and so the progress of a run.  While a byte waits in an armed TX the register becomes ready, by ENV_TX_READY
if need be, and stays so until IRQ_TX writes; a byte not yet armed waits for the foreground's AR1 (log 18). -/

namespace Sys2Proof.Machine

/-! ## What a step keeps of the bytes on their way -/

/-- A sound driver after INIT to whose TX these bytes have been pushed, and perhaps more after them. -/
structure State.Carries (s : State) (bytes : List Byte) : Prop where
  sound : s.driverSound
  inited : s.inited = true
  pushed : bytes <+: s.tx.pushed

theorem RingBuffer.ProducerMove.pushed_prefix {B B' : RingBuffer} (hmove : B.ProducerMove B') :
    B.pushed <+: B'.pushed := by
  cases hmove with
  | stay => exact List.prefix_rfl
  | store v => exact List.prefix_rfl
  | publish hroom => exact List.prefix_append ..

section steps
variable {s t : State} {bytes : List Byte}

theorem State.Carries.running (h : s.Carries bytes) : s.runningOk := h.sound.running h.inited

theorem State.Carries.tx_inRange (h : s.Carries bytes) : s.tx.inRange = true := by
  obtain ⟨-, htx, -, -, -⟩ := h.sound
  exact htx.inRange

/-- I3 and I4: what is on the wire was pushed. -/
theorem State.Carries.txLog_prefix (h : s.Carries bytes) : s.hal.txLog <+: s.tx.pushed := by
  obtain ⟨hfifo, -, hlog, -⟩ := h.running
  rw [hlog, show s.tx.pushed = _ from hfifo]
  exact List.prefix_append ..

/-- With TX empty, everything pushed is on the wire. -/
theorem State.Carries.sent_of_empty (h : s.Carries bytes) (hempty : s.tx.occ = 0) : bytes <+: s.hal.txLog := by
  obtain ⟨hfifo, -, hlog, -⟩ := h.running
  have hcontents : s.tx.contents = [] := List.length_eq_zero_iff.mp (s.tx.contents_length.trans hempty)
  have hpushed : s.tx.pushed = s.tx.popped ++ s.tx.contents := hfifo
  rw [hcontents, List.append_nil, ← hlog] at hpushed
  exact hpushed ▸ h.pushed

theorem State.KeepsDriver.carries (hkeeps : s.KeepsDriver t) (h : s.Carries bytes) : t.Carries bytes :=
  ⟨hkeeps.driverSound h.sound, hkeeps.inited.trans h.inited, hkeeps.tx ▸ h.pushed⟩

theorem fgMicro_carries (h : s.Carries bytes) (hbusy : s.fg ≠ .idle) : (fgMicro s).Carries bytes := by
  have hfg := h.sound.fgOk
  have ⟨_, htx, hrx, _, _⟩ := h.sound
  have hmove := fgMicro_foregroundMove htx hrx hfg
  exact ⟨fgMicro_driverSound h.sound hbusy, hmove.inited.trans h.inited, h.pushed.trans hmove.tx.pushed_prefix⟩

theorem State.DriverStep.carries (hstep : s.DriverStep t) (h : s.Carries bytes) : t.Carries bytes := by
  have hsound : t.driverSound := hstep.driverSound h.sound
  cases hstep with
  | frame hkeeps => exact hkeeps.carries h
  | command p k hinit hidle hp =>
    exact runFg_keeps (P := (State.Carries · bytes)) (fun u hu hbusy => fgMicro_carries hu hbusy) k _
      ⟨h.sound.withFg hinit hidle hp, hinit, h.pushed⟩
  | micro hbusy => exact fgMicro_carries h hbusy
  | init hinit => exact absurd (hinit.symm.trans h.inited) Bool.false_ne_true
  | irqTx henabled => exact ⟨hsound, h.inited, s.tx.irqTxFiring_consumerMove.pushed_eq ▸ h.pushed⟩
  | irqRx | txReady | rxArrive => exact ⟨hsound, h.inited, h.pushed⟩

theorem fgMicro_armed (harmed : s.hal.txArmed = true) : (fgMicro s).hal.txArmed = true := by
  rw [fgMicro_txArmed, harmed, Bool.true_or]

theorem runFg_armed (k : Nat) (harmed : s.hal.txArmed = true) : (runFg k s).hal.txArmed = true :=
  runFg_keeps (P := fun u => u.hal.txArmed = true) (fun _ hu _ => fgMicro_armed hu) k s harmed

/-- After INIT only an IRQ_TX that leaves TX empty masks the interrupt (R147). -/
theorem State.DriverStep.armed_or_empty (hstep : s.DriverStep t) (hinit : s.inited = true)
    (harmed : s.hal.txArmed = true) : t.hal.txArmed = true ∨ t.tx.occ = 0 := by
  cases hstep with
  | frame hkeeps => exact .inl (hkeeps.hal ▸ harmed)
  | command p k hinit' hidle hp => exact .inl (runFg_armed (s := s.withFg p) k harmed)
  | micro hbusy => exact .inl (fgMicro_armed harmed)
  | init hfresh => exact absurd (hfresh.symm.trans hinit) Bool.false_ne_true
  | irqTx henabled => exact (RingBuffer.irqTxFiring_empty_or_armed henabled.inRange).symm
  | irqRx | txReady | rxArrive => exact .inl harmed

/-- IRQ_TX on a TX that is not empty puts a byte on the wire (R172). -/
theorem txLog_length_lt_afterIrqTx (hbyte : s.tx.head ≠ s.tx.tail) :
    s.hal.txLog.length < s.afterIrqTx.hal.txLog.length := by
  simp [State.afterIrqTx, RingBuffer.irqTxFiring_sent_of_byte hbyte]

/-- After INIT only a write makes the transmit register busy (R191). -/
theorem State.DriverStep.ready_or_sent (hstep : s.DriverStep t) (hinit : s.inited = true)
    (hready : s.hal.txRegEmpty = true) :
    t.hal.txRegEmpty = true ∨ s.hal.txLog.length < t.hal.txLog.length := by
  cases hstep with
  | frame hkeeps => exact .inl (hkeeps.hal ▸ hready)
  | command p k hinit' hidle hp => exact .inl ((runFg_txRegister k (s.withFg p)).2.trans hready)
  | micro hbusy => exact .inl ((fgMicro_txRegister s).2.trans hready)
  | init hfresh => exact absurd (hfresh.symm.trans hinit) Bool.false_ne_true
  | irqTx henabled =>
    by_cases hempty : s.tx.head = s.tx.tail
    · exact .inl (congrArg TxFiring.ready (RingBuffer.irqTxFiring_of_empty hempty))
    · exact .inr (txLog_length_lt_afterIrqTx hempty)
  | irqRx | rxArrive => exact .inl hready
  | txReady => exact .inl rfl

/-- AR1 is the last micro-step of its SEND_BYTE: a line goes on at the next PU1, or ends. -/
theorem fgMicro_leaves_ar1 (har1 : s.fg.atAr1 = true) : (fgMicro s).fg.atAr1 = false := by
  cases hpos : s.fg with
  | sendByte p =>
    rw [hpos] at har1
    cases p with
    | push q => cases har1
    | ar1 =>
      simp only [fgMicro, hpos, sendMicro]
      rfl
  | sendLine p stage rest =>
    rw [hpos] at har1
    cases p with
    | push q => cases har1
    | ar1 =>
      rw [fgMicro_sendLine_done hpos rfl, afterInner]
      cases lineNext stage rest <;> rfl
  | idle | sl0 | readByte | rxLen =>
    rw [hpos] at har1
    cases har1

end steps

/-! ## A run of the step relation -/

/-- The runs of R203 that I9 speaks of, fairness apart: from a sound driver after INIT, with no HAL word from outside
(log 8) and `gie` 1 throughout. -/
structure SoundRun (σ : Nat → State) (τ : Nat → Turn) : Prop where
  isRun : IsRun σ τ
  ofStepRelation : ∀ k, (τ k).ofStepRelation = true
  sound : (σ 0).driverSound
  inited : (σ 0).inited = true
  gie : ∀ k, (σ k).gie = true

section runs
variable {σ : Nat → State} {τ : Nat → Turn} {k n : Nat} {bytes : List Byte}

/-- A state with no turn to come is for the driver as it is with its schedule. -/
theorem State.keepsDriver_noAgenda (s : State) : s.KeepsDriver { s with agenda := [] } :=
  ⟨rfl, rfl, rfl, rfl, rfl, rfl, fun _ => nofun⟩

/-- A turn that performs an operation which is one atomic step of R203 is a step of its exec. -/
theorem IsRun.exec_of_performs (hrun : IsRun σ τ) {i : Instr} (hatomic : ∀ s, issue i s = exec i s)
    (hturn : (τ k).performs i) : ∃ u, (σ k).KeepsDriver u ∧ exec i u = .next (σ (k + 1)) := by
  cases hτ : τ k with
  | micro c =>
    rw [hτ] at hturn
    exact hturn.elim
  | word p m cw line =>
    rw [hτ] at hturn
    obtain ⟨hdecode, haccepts⟩ := hturn
    have hstep := hrun k
    rw [hτ, step_accepted rfl hdecode haccepts] at hstep
    refine ⟨_, (σ k).keepsDriver_noAgenda.trans (present_keepsDriver p line _), ?_⟩
    cases m with
    | whole => exact hstep
    | issue => exact (hatomic _).symm.trans hstep

theorem SoundRun.driverStep (hrun : SoundRun σ τ) (k : Nat) : ∃ u, (σ k).KeepsDriver u ∧ u.DriverStep (σ (k + 1)) := by
  have hscheduled : State.scheduled { σ k with agenda := [τ k] } := fun turn hturn => by
    rw [List.mem_singleton.mp hturn]
    exact hrun.ofStepRelation k
  obtain ⟨u, hkeeps, hstep⟩ := step_driverStep hscheduled (hrun.isRun k)
  have hturn : (σ k).KeepsDriver { σ k with agenda := [τ k] } := ⟨rfl, rfl, rfl, rfl, rfl, rfl, fun _ => hscheduled⟩
  exact ⟨u, hturn.trans hkeeps, hstep⟩

theorem SoundRun.carries_of_le (hrun : SoundRun σ τ) (h : (σ n).Carries bytes) (hk : n ≤ k) : (σ k).Carries bytes := by
  induction k, hk using Nat.le_induction with
  | base => exact h
  | succ k hk ih =>
    obtain ⟨u, hkeeps, hstep⟩ := hrun.driverStep k
    exact hstep.carries (hkeeps.carries ih)

/-- What TX has been given by some moment it has been given at every later one. -/
theorem SoundRun.carries (hrun : SoundRun σ τ) (hk : n ≤ k) : (σ k).Carries (σ n).tx.pushed := by
  obtain ⟨hsound, hinit, -⟩ := hrun.carries_of_le ⟨hrun.sound, hrun.inited, List.nil_prefix⟩ n.zero_le
  exact hrun.carries_of_le ⟨hsound, hinit, List.prefix_rfl⟩ hk

theorem SoundRun.txLog_length_le (hrun : SoundRun σ τ) (hk : n ≤ k) :
    (σ n).hal.txLog.length ≤ (σ k).hal.txLog.length := by
  induction k, hk using Nat.le_induction with
  | base => exact le_rfl
  | succ k hk ih => exact ih.trans (step_growsTo (hrun.isRun k)).tx.length_le

theorem SoundRun.armed_or_empty (hrun : SoundRun σ τ) (harmed : (σ k).hal.txArmed = true) :
    (σ (k + 1)).hal.txArmed = true ∨ (σ (k + 1)).tx.occ = 0 := by
  obtain ⟨u, hkeeps, hstep⟩ := hrun.driverStep k
  exact hstep.armed_or_empty (hkeeps.inited.trans (hrun.carries le_rfl).inited) (hkeeps.hal ▸ harmed)

theorem SoundRun.ready_or_sent (hrun : SoundRun σ τ) (hready : (σ k).hal.txRegEmpty = true) :
    (σ (k + 1)).hal.txRegEmpty = true ∨ (σ k).hal.txLog.length < (σ (k + 1)).hal.txLog.length := by
  obtain ⟨u, hkeeps, hstep⟩ := hrun.driverStep k
  rw [← hkeeps.hal]
  exact hstep.ready_or_sent (hkeeps.inited.trans (hrun.carries le_rfl).inited) (hkeeps.hal ▸ hready)

/-! ## What the fair turns do -/

/-- Under weak fairness of ENV_TX_READY the transmit register is ready again and again (R199). -/
theorem SoundRun.exists_ready (hrun : SoundRun σ τ) (hfair : WeaklyFair .envTxReady σ τ) (n : Nat) :
    ∃ k ≥ n, (σ k).hal.txRegEmpty = true := by
  by_contra! hbusy
  have henabled : ∀ k ≥ n, ∃ t, exec .envTxReady (σ k) = .next t := fun k hk => by
    obtain ⟨-, -, -, -, -, -, hconf, -⟩ := (hrun.carries (le_refl k)).running
    exact ⟨_, exec_envTxReady_of_enabled hconf (Bool.eq_false_iff.mpr (hbusy k hk))⟩
  obtain ⟨k, hk, hturn⟩ := hfair n henabled
  obtain ⟨u, -, hexec⟩ := hrun.isRun.exec_of_performs (fun _ => rfl) hturn
  have hnext : σ (k + 1) = u.txReady := execEnvTxReady_next hexec
  exact hbusy (k + 1) (Nat.le_succ_of_le hk) (by rw [hnext]; rfl)

/-- Under weak fairness of both, from a moment on which TX is armed and holds a byte another byte is sent. -/
theorem SoundRun.exists_sent (hrun : SoundRun σ τ) (hfairReady : WeaklyFair .envTxReady σ τ)
    (hfairIrq : WeaklyFair .irqTx σ τ) (harmed : ∀ k ≥ n, (σ k).hal.txArmed = true)
    (hbyte : ∀ k ≥ n, (σ k).tx.head ≠ (σ k).tx.tail) : ∃ k ≥ n, (σ n).hal.txLog.length < (σ k).hal.txLog.length := by
  by_contra! hnone
  obtain ⟨j, hj, hready⟩ := hrun.exists_ready hfairReady n
  have hstays : ∀ k ≥ j, (σ k).hal.txRegEmpty = true := fun k hk => by
    induction k, hk using Nat.le_induction with
    | base => exact hready
    | succ k hk ih =>
      refine (hrun.ready_or_sent ih).resolve_right fun hsent => ?_
      have hle := hnone (k + 1) (by omega)
      have hge := hrun.txLog_length_le (hj.trans hk)
      omega
  have henabled : ∀ k ≥ j, ∃ t, exec .irqTx (σ k) = .next t := fun k hk => by
    have hcarries := hrun.carries (le_refl k)
    exact ⟨_, (State.EnablesIrqTx.mk hcarries.inited (hrun.gie k) (harmed k (hj.trans hk)) (hstays k hk)
      hcarries.tx_inRange).exec_eq⟩
  obtain ⟨k, hk, hturn⟩ := hfairIrq j henabled
  obtain ⟨u, hkeeps, hexec⟩ := hrun.isRun.exec_of_performs (fun _ => rfl) hturn
  have hsent := txLog_length_lt_afterIrqTx (s := u) (hkeeps.tx ▸ hbyte k (hj.trans hk))
  rw [← execIrqTx_next hexec, hkeeps.hal] at hsent
  have hle := hnone (k + 1) (by omega)
  have hge := hrun.txLog_length_le (hj.trans hk)
  omega

/-- I9 at a moment outside PU4 to AR1: TX stays armed and keeps a byte until what was pushed is sent. -/
theorem SoundRun.eventually_sent (hrun : SoundRun σ τ) (hfairReady : WeaklyFair .envTxReady σ τ)
    (hfairIrq : WeaklyFair .irqTx σ τ) (har1 : (σ n).fg.atAr1 = false) :
    ∃ m ≥ n, (σ n).tx.pushed <+: (σ m).hal.txLog := by
  by_contra! hunsent
  have hoccupied : ∀ k ≥ n, (σ k).tx.occ ≠ 0 := fun k hk hempty =>
    hunsent k hk ((hrun.carries hk).sent_of_empty hempty)
  have harmed : ∀ k ≥ n, (σ k).hal.txArmed = true := fun k hk => by
    induction k, hk using Nat.le_induction with
    | base =>
      obtain ⟨-, -, -, -, -, harming, -⟩ := (hrun.carries (le_refl n)).running
      exact (harming.resolve_left (hoccupied n le_rfl)).resolve_right fun hat =>
        Bool.false_ne_true (har1.symm.trans hat)
    | succ k hk ih => exact (hrun.armed_or_empty ih).resolve_right (hoccupied (k + 1) (Nat.le_succ_of_le hk))
  have hbyte : ∀ k ≥ n, (σ k).tx.head ≠ (σ k).tx.tail := fun k hk hempty =>
    hoccupied k hk ((RingBuffer.empty_iff_occ_of_inRange (hrun.carries hk).tx_inRange).mp hempty)
  have hunbounded (j : Nat) : ∃ m ≥ n, j ≤ (σ m).hal.txLog.length := by
    induction j with
    | zero => exact ⟨n, le_rfl, Nat.zero_le _⟩
    | succ j ih =>
      obtain ⟨m, hm, hlen⟩ := ih
      obtain ⟨k, hk, hsent⟩ := hrun.exists_sent hfairReady hfairIrq (fun k hk => harmed k (hm.trans hk))
        (fun k hk => hbyte k (hm.trans hk))
      exact ⟨k, hm.trans hk, by omega⟩
  obtain ⟨m, hm, hlen⟩ := hunbounded (σ n).tx.pushed.length
  have hcarries := hrun.carries hm
  exact hunsent m hm (List.prefix_of_prefix_length_le hcarries.pushed hcarries.txLog_prefix hlen)

/-- Under weak fairness of the foreground a SEND_BYTE does not stay at AR1. -/
theorem SoundRun.exists_not_atAr1 (hrun : SoundRun σ τ) (hfair : WeaklyFairForeground σ τ) (n : Nat) :
    ∃ k ≥ n, (σ k).fg.atAr1 = false := by
  by_contra! hstays
  have har1 : ∀ k ≥ n, (σ k).fg.atAr1 = true := fun k hk => Bool.ne_false_iff.mp (hstays k hk)
  have hbusy : ∀ k ≥ n, (σ k).fg ≠ .idle := fun k hk hidle => by
    have hat := har1 k hk
    rw [hidle] at hat
    cases hat
  obtain ⟨k, hk, hturn⟩ := hfair n fun k hk =>
    ⟨_, fgTurn_of_driverSound (hrun.carries (le_refl k)).sound (hbusy k hk)⟩
  have hstep := hrun.isRun k
  rw [hturn, step_micro rfl] at hstep
  obtain ⟨-, -, hnext⟩ := fgTurn_next hstep
  exact hstays (k + 1) (Nat.le_succ_of_le hk) (by rw [hnext]; exact fgMicro_leaves_ar1 (har1 k hk))

end runs

/-- Settles O39: outside PU4 to AR1 the two fair turns drain TX; a foreground that goes on leaves AR1 first. -/
theorem pushedBytesAreEventuallySent : Obligations.PushedBytesAreEventuallySent := by
  intro σ τ hisRun hturns hsound hinit hgie hfairReady hfairIrq
  have hrun : SoundRun σ τ := ⟨hisRun, hturns, hsound, hinit, hgie⟩
  refine ⟨fun n har1 => hrun.eventually_sent hfairReady hfairIrq har1, fun hfairFg n => ?_⟩
  obtain ⟨k, hk, har1⟩ := hrun.exists_not_atAr1 hfairFg n
  obtain ⟨m, hm, hsent⟩ := hrun.eventually_sent hfairReady hfairIrq har1
  exact ⟨m, hk.trans hm, (hrun.carries hk).pushed.trans hsent⟩

end Sys2Proof.Machine
end
